-- ==== Sys2Proof/Word.lean ====
section
/-! DEFINITION. The plain data words of the 6210: bytes, and the numbers of contexts and lanes. Host-memory addresses,
and times and spans in microseconds, are plain `Nat`s: their arithmetic is ordinary integer arithmetic (file 00,
Conventions, "Arithmetic" and "Time"). -/

namespace Sys2Proof

/-- A byte: data, a check lane, a coefficient or a matrix entry (R1), or a byte of a host-memory image (R168). -/
abbrev Byte := BitVec 8

/-- The number of a repair context, 0 to 47 (R73). -/
abbrev CtxId := Fin 48

/-- The number of a delivery lane, 0 to 31 (R139). -/
abbrev LaneId := Fin 32

/-- A vector given entry by entry. -/
def tabulate {α : Type} {n : Nat} (f : Fin n → α) : Vector α n :=
  ⟨((List.finRange n).map f).toArray, by simp⟩

@[simp] theorem tabulate_getElem {α : Type} {n : Nat} (f : Fin n → α) (i : Nat) (h : i < n) :
    (tabulate f)[i] = f ⟨i, h⟩ := by
  simp [tabulate]

end Sys2Proof
end

