-- ==== Sys2Proof/Machine/Field.lean ====
section
/-! DEFINITION. GF(2^8) and what is computed in it: products and powers (R1 to R3), the window check (R11 to R13),
linear combinations of windows (R104), and the inversion of a basis matrix (R103). -/

namespace Sys2Proof.Machine

/-- Twice an element: one place toward bit 7, and 0x1D added when a 1 leaves bit 7 (R2). -/
def gfDouble (a : Byte) : Byte :=
  (a <<< 1) ^^^ (if a.msb then 0x1D#8 else 0#8)

/-- The product, by shift and add over the bits of `b` from most significant to least (R2). -/
def gfMul (a b : Byte) : Byte :=
  [7, 6, 5, 4, 3, 2, 1, 0].foldl
    (fun acc i => if b.getLsbD i then gfDouble acc ^^^ a else gfDouble acc) 0#8

/-- The sum of a list of elements (R1). -/
def gfSum (xs : List Byte) : Byte := xs.foldl (· ^^^ ·) 0#8

/-- a^e, with a^0 = 1 also for a = 0 (R3). -/
def gfPow (a : Byte) : Nat → Byte
  | 0 => 1#8
  | e + 1 => gfMul (gfPow a e) a

/-- The inverse of a non-zero element, a^254 (R3). -/
def gfInv (a : Byte) : Byte := gfPow a 254

/-- The sum of the products of two lists, entry by entry. -/
def gfDot (xs ys : List Byte) : Byte := gfSum (List.zipWith gfMul xs ys)

/-! ## The window check -/

/-- A window of valid bytes followed by zeros to `S` bytes (R11). -/
def padWindow (S : Nat) (bytes : List Byte) : List Byte :=
  bytes ++ List.replicate (S - bytes.length) 0#8

/-- The check generators g_0 to g_3 (R12). -/
def checkGenerators : List Byte := [1#8, 2#8, 4#8, 8#8]

/-- One lane of the check, in Horner form (R12). -/
def checkLane (g : Byte) (window : List Byte) : Byte :=
  window.foldl (fun h x => gfMul h g ^^^ x) 0#8

/-- The four-byte check of a window already padded to S bytes, in lane order (R12). -/
def windowCheck (window : List Byte) : List Byte :=
  checkGenerators.map (fun g => checkLane g window)

/-- The supplied check agrees with the computed one in every lane the mask selects (R15). -/
def checkMatches (mask : BitVec 4) (computed supplied : List Byte) : Bool :=
  (List.range 4).all fun t => !mask.getLsbD t || computed.getD t 0 == supplied.getD t 0

/-- Byte by byte, the sum of coefficient times window over the members: an output window of `S` bytes (R104,
R119). -/
def combineWindows (S : Nat) (row : List Byte) (windows : List (List Byte)) : List Byte :=
  (List.zip row windows).foldl
    (fun acc cw => List.zipWith (· ^^^ ·) acc (cw.2.map (gfMul cw.1)))
    (List.replicate S 0#8)

/-! ## Inversion -/

/-- The unit vector e_f of k entries (R6). -/
def unitRow (k f : Nat) : List Byte :=
  (List.range k).map fun j => if j = f then 1#8 else 0#8

/-- A row of the matrix with the carried row beside it (R103). -/
structure AugRow where
  left : List Byte
  right : List Byte
  deriving DecidableEq, Repr

/-- An empty row, which no valid row index gives. -/
def AugRow.empty : AugRow := { left := [], right := [] }

/-- A row times an element, in both halves. -/
def AugRow.scale (e : Byte) (r : AugRow) : AugRow :=
  { left := r.left.map (gfMul e), right := r.right.map (gfMul e) }

/-- The sum of two rows, in both halves. -/
def AugRow.add (r t : AugRow) : AugRow :=
  { left := List.zipWith (· ^^^ ·) r.left t.left, right := List.zipWith (· ^^^ ·) r.right t.right }

/-- The matrix with the identity carried alongside (R103). -/
def augment (rows : List (List Byte)) : List AugRow :=
  rows.mapIdx fun i r => { left := r, right := unitRow rows.length i }

/-- The lowest-indexed row from `c` on whose entry in column `c` is non-zero (R103, step 1). -/
def pivotRow (M : List AugRow) (c : Nat) : Option Nat :=
  (List.range M.length).find? fun r => decide (c ≤ r) && (M.getD r .empty).left.getD c 0 != 0#8

/-- Rows `i` and `j` exchanged (R103, step 2). -/
def swapRows (M : List AugRow) (i j : Nat) : List AugRow :=
  (M.set i (M.getD j .empty)).set j (M.getD i .empty)

/-- Row `c` made to hold 1 in column `c` (R103, step 3). -/
def scaleRow (M : List AugRow) (c : Nat) : List AugRow :=
  let row := M.getD c .empty
  M.set c (row.scale (gfInv (row.left.getD c 0)))

/-- Every other row made to hold 0 in column `c` (R103, step 4). -/
def eliminateColumn (M : List AugRow) (c : Nat) : List AugRow :=
  M.mapIdx fun i r =>
    let e := r.left.getD c 0
    if i = c ∨ e = 0#8 then r else r.add ((M.getD c .empty).scale e)

/-- One column of the elimination; `none` when it has no pivot (R103). -/
def eliminationStep (M : List AugRow) (c : Nat) : Option (List AugRow) :=
  (pivotRow M c).map fun r => eliminateColumn (scaleRow (swapRows M c r) c) c

/-- The inverse of the matrix of these rows, or `none` when they are dependent: SINGULAR (R103). -/
def invertRows (rows : List (List Byte)) : Option (List (List Byte)) :=
  ((List.range rows.length).foldlM eliminationStep (augment rows)).map fun M => M.map AugRow.right

/-- A parity row times the inverse (R104). -/
def rowTimesMatrix (row : List Byte) (M : List (List Byte)) : List Byte :=
  (List.range row.length).map fun i => gfDot row (M.map fun r => r.getD i 0)

end Sys2Proof.Machine
end

