-- ==== Sys2Proof/Config.lean ====
section
/-! DEFINITION. What the manual fixes for every 6210, and the values it leaves free. -/

namespace Sys2Proof.Config

/-- The format word of an anchor block (file 11, section 11.2; R156 check 1). -/
def formatWord : Nat := 0x62100001

/-- A host-memory read without completion is ended after this many microseconds (R171). -/
def completionTimeout : Nat := 50000

/-- The pen holds at most this many notes (R57). -/
def penCapacity : Nat := 32

/-- A candidate's range list holds at most this many ranges (R66). -/
def rangeCapacity : Nat := 8

/-- A lane's stock holds at most this many blanks (R140). -/
def stockCapacity : Nat := 2

/-- A selection ends at this many singular results (R96). -/
def attemptLimit : Nat := 8

/-- A fragment's resolution fails when this many draws have been discarded (R132). -/
def drawLimit : Nat := 8

/-- The largest fragment length (R33). -/
def maxLength : Nat := 268435456

/-- The longest run of windows one note may supply (R52). -/
def maxRun : Nat := 1024

/-- The largest window size, by which a blank's buffer is measured (R142). -/
def largestWindow : Nat := 65536

/-- Addresses are 64 bits wide (R171). -/
def addressSpace : Nat := 2 ^ 64

/-- Bits 1 to 63 of the n-th link word the 6210 writes with HOLD set. The manual gives such a word its
HOLD bit and says nothing of the others (R19, R29): a free value, fresh for each `n` (log 5). -/
opaque holdLinkRest : Nat → BitVec 63

/-- The 4 KiB page that a request meets when the arithmetic of its address gives page `n`, past the top of the address
space. Requests use 64-bit addresses (R171), and the manual gives no address there: a free value (log 18). -/
opaque pagePastTop : Nat → BitVec 52

end Sys2Proof.Config
end

