-- ==== Sys2Proof/Syntax.lean ====
section
/-! DEFINITION. The commands of the block: one constructor of `Instr` for each row of `spec/opcode_table.json`,
with the operands that the row's rule speaks of. -/

namespace Sys2Proof

/-- One of the 34 chain walkers (R21). -/
inductive WalkerId where
  | order
  | note
  | blank (lane : LaneId)
  deriving DecidableEq, Repr

/-- A host-memory read that can be in flight, for the completion timeout of R171. -/
inductive ReadId where
  | startAnchor
  | reloadAnchor
  | walker (w : WalkerId)
  /-- the read of the i-th basis member's window, by the combine in flight (R115) -/
  | survivor (i : Nat)
  deriving DecidableEq, Repr

/-- What a host-memory read came back with: an error completion, or the bytes (R26, R115, R156). -/
inductive ReadResult where
  | failed
  | data (bytes : List Byte)
  deriving DecidableEq, Repr

/-- What the reads of one survivor window came back with: its data, and its check. The check counts only
when the member's recorded range is checked (R115). -/
structure SurvivorRead where
  data : ReadResult
  check : ReadResult
  deriving DecidableEq, Repr

/-- The commands, operations and events the block takes (`spec/opcode_table.json`). -/
inductive Instr where
  /-- START, R156 -/
  | start
  /-- STOP, R159 -/
  | stop
  /-- RELOAD, R158 -/
  | reload
  /-- WAKE, R161 -/
  | wake
  /-- RESET, the engine reset, R167 -/
  | reset
  /-- COLD_RESET: power-on, or a PCIe fundamental or hot reset, R167 -/
  | coldReset
  /-- ANCHOR_REGISTER_WRITE: an 8-byte write of `value`, R155 -/
  | anchorRegisterWrite (value : BitVec 64)
  /-- EVENTS_READ: a read that includes byte 0 of EVENTS, R165 -/
  | eventsRead
  /-- IGNORED_REGISTER_WRITE: a write of `width` bytes at `offset` that R154, R155 or R171 ignores -/
  | ignoredRegisterWrite (offset width value : Nat)
  /-- START_READ_COMPLETION, R156 -/
  | startReadCompletion (image : ReadResult)
  /-- RELOAD_READ_COMPLETION, R158 -/
  | reloadReadCompletion (image : ReadResult)
  /-- LEAVE_TO_TAKE, R23 -/
  | leaveToTake (w : WalkerId)
  /-- ORDER_TAKE: the order walker's record read completes, R35 -/
  | orderTake (record : ReadResult)
  /-- NOTE_TAKE: the note walker's record read completes, R55 -/
  | noteTake (record : ReadResult)
  /-- BLANK_TAKE: the record read of a lane's blank walker completes, R142 -/
  | blankTake (lane : LaneId) (record : ReadResult)
  /-- REVISIT_DEADLINE, R24 -/
  | revisitDeadline (w : WalkerId)
  /-- REVISIT_COMPLETION, R25 -/
  | revisitCompletion (w : WalkerId) (word : ReadResult)
  /-- READ_COMPLETION_TIMEOUT, R171 -/
  | readCompletionTimeout (read : ReadId)
  /-- SETTLE_DEADLINE, R82 -/
  | settleDeadline (c : CtxId)
  /-- ORPHAN_EXPIRY: the deadline of the pen entry at a position, 0 the front, R59 -/
  | orphanExpiry (position : Nat)
  /-- STRAGGLER_EXPIRY, R99 -/
  | stragglerExpiry (c : CtxId)
  /-- SOLVE_BEGIN, R102 -/
  | solveBegin
  /-- SOLVE_COMPLETION, R105 -/
  | solveCompletion
  /-- STEERING_RETRY: the attempts a blank on `lane` calls for, R136 -/
  | steeringRetry (lane : LaneId)
  /-- COMBINE_GRANT, R112 -/
  | combineGrant
  /-- COMBINE_COMPLETION: what the survivor reads returned, in member order, and whether the unit's own
  arithmetic failed (R119), R117 -/
  | combineCompletion (reads : List SurvivorRead) (internalFault : Bool)
  /-- DRAIN_FINISH, R45 -/
  | drainFinish (c : CtxId)
  /-- IDLE_DEADLINE_EXPIRY, R160 -/
  | idleDeadlineExpiry
  /-- DOZE_ENTRY, R160 -/
  | dozeEntry
  /-- HOLDOFF_EXPIRY, R166 -/
  | holdoffExpiry
  deriving DecidableEq, Repr

end Sys2Proof
end

