-- ==== Sys2Proof/Machine/State.lean ====
section
/-! DEFINITION. The state of the 6210, block by block (file 00, "Block overview"), and the machine right after reset.
Deadlines are absolute times on the model's clock `State.now`. -/

namespace Sys2Proof.Machine

/-! ## Control unit -/

/-- The six engine states (R153). -/
inductive Engine where
  | stopped
  | starting
  | running
  | dozing
  | stopping
  | halted
  deriving DecidableEq, Repr

/-- The cause STATUS shows: none, a reject cause (R156), or a halt cause (R162). -/
inductive Cause where
  | none
  | anchorRead
  | anchorFence
  | tableProfile
  | tableOrder
  | chainMalformed
  | chainRead
  | fenceOrder
  | fenceNote
  | fenceBlank
  | anchorWrite
  deriving DecidableEq, Repr

/-- A profile entry as loaded (R4). `coeffs` is row-major: P[r][j] is entry r·k + j. -/
structure Profile where
  valid : Bool
  k : Nat
  m : Nat
  sizeCode : Nat
  mask : BitVec 4
  coeffs : List Byte
  deriving DecidableEq, Repr

/-- The kind of a steering interval (R126). -/
inductive IntervalKind where
  | normal
  | spread
  | forbidden
  deriving DecidableEq, Repr

/-- An interval entry of the steering table (R126). -/
structure Interval where
  kind : IntervalKind
  lane : LaneId
  deriving DecidableEq, Repr

/-- The loaded steering table (R126), the spread range already clamped (R127). `seps[i]` is sep_(i+1). -/
structure SteeringTable where
  seps : Vector Nat 31
  intervals : Vector Interval 32
  spreadBase : Nat
  spreadRange : Nat
  seed : Nat
  groupEnd : Vector Bool 32
  deriving DecidableEq, Repr

/-- The loaded timers in microseconds, and the quota in windows (R157). -/
structure Timers where
  settle : Nat
  straggler : Nat
  revisit : Nat
  dozeRevisit : Nat
  idle : Nat
  holdoff : Nat
  orphan : Nat
  quota : Nat
  deriving DecidableEq, Repr

/-- A fence window (R163). Base and limit are addresses, 64 bits wide (R171). -/
structure FenceWindow where
  base : BitVec 64
  limit : BitVec 64
  enabled : Bool
  deriving DecidableEq, Repr

/-- The control unit (R153, R155 to R164). -/
structure Control where
  engine : Engine
  cause : Cause
  anchor : BitVec 64
  generation : BitVec 16
  /-- issue time of the anchor read of STARTING, while it is in flight (R156) -/
  startReadAt : Option Nat
  /-- issue time of the reload in flight (R158) -/
  reloadAt : Option Nat
  profiles : Vector Profile 16
  steering : SteeringTable
  timers : Timers
  fences : Vector FenceWindow 4
  fenceLock : Bool
  idleDeadline : Option Nat
  idleElapsed : Bool
  deriving DecidableEq, Repr

/-! ## Event unit -/

/-- The event unit (R165, R166). Bit i of `bits` is bit i of EVENTS. -/
structure EventUnit where
  bits : BitVec 8
  interruptEnable : Bool
  /-- `none` is idle; `some t` is running toward an expiry at `t` -/
  holdoff : Option Nat
  announcePending : Bool
  deriving DecidableEq, Repr

/-! ## Chain walkers -/

/-- The five walker states (R21). -/
inductive WalkerState where
  | idle
  | held
  | revisiting
  | next
  | reading
  deriving DecidableEq, Repr

/-- A walker's cursor (section 2.2): the record last taken, or the start field when none was since START. -/
inductive Cursor where
  | empty
  | startField
  | record (a : Nat)
  deriving DecidableEq, Repr

/-- A chain walker (section 2.2, R21). -/
structure Walker where
  state : WalkerState
  cursor : Cursor
  successor : Option Nat
  deadline : Option Nat
  wakePending : Bool
  /-- issue time of the record read or revisit in flight (R171) -/
  readAt : Option Nat
  deriving DecidableEq, Repr

/-! ## Note unit -/

/-- A note's kind as read (R52, R170). -/
inductive NoteKind where
  | data
  | withdraw
  | cancel
  | bad
  deriving DecidableEq, Repr

/-- The host-side fields of a note as read at its take (R52). -/
structure Note where
  kind : NoteKind
  tag : Nat
  frag : Nat
  first : Nat
  count : Nat
  dataAddr : Nat
  checksAddr : Nat
  deriving DecidableEq, Repr

/-- A note's outcome (R53). NEW is the host's to write. -/
inductive NoteOutcome where
  | pending
  | accepted
  | applied
  | droppedFormat
  | droppedNotCandidate
  | droppedSourceDead
  | droppedRange
  | droppedLate
  | droppedOverlap
  | droppedFull
  | droppedOrphan
  | droppedStop
  deriving DecidableEq, Repr

/-- An entry of the pen (section 4.3). -/
structure PenEntry where
  addr : Nat
  note : Note
  deadline : Nat
  deriving DecidableEq, Repr

/-! ## Repair contexts -/

/-- The states of a context in use (R73); FREE is an empty slot of the table. -/
inductive CtxState where
  | settling
  | solving
  | steering
  | active
  | draining
  deriving DecidableEq, Repr

/-- The outcome of an order (R47, R170). NEW is the host's to write; `new` stands for "none yet". -/
inductive OrderOutcome where
  | new
  | complete
  | unrecoverable
  | steerFailed
  | cancelled
  | aborted
  | internalMismatch
  | refused
  deriving DecidableEq, Repr

/-- The detail of an order's outcome (R47, R170). -/
inductive Detail where
  | none
  | loss
  | singular
  | forbidden
  | unresolved
  | profile
  | length
  | lostList
  | candidateList
  | dupTag
  deriving DecidableEq, Repr

/-- A candidate's state (R76). -/
inductive CandState where
  | awaited
  | landing
  | withdrawn
  | corrupt
  deriving DecidableEq, Repr

/-- A candidate's role (R77). -/
inductive Role where
  | basis
  | spare
  deriving DecidableEq, Repr

/-- A range of a candidate's range list (R64). `checks` is `none` when the range is unchecked (R14). -/
structure Range where
  first : Nat
  count : Nat
  dataAddr : Nat
  checks : Option Nat
  ordinal : Nat
  deriving DecidableEq, Repr

/-- A roster entry (R76). -/
structure Candidate where
  frag : Nat
  rank : Nat
  state : CandState
  role : Role
  demotions : Nat
  tried : Bool
  ranges : List Range
  deriving DecidableEq, Repr

/-- The copy of a blank's host-side fields (R140). -/
structure Blank where
  addr : Nat
  buffer : Nat
  checkArea : Nat
  capacity : Nat
  deriving DecidableEq, Repr

/-- A record a lost fragment is filling (section 9.3). -/
structure OpenRecord where
  blank : Blank
  first : Nat
  count : Nat
  deriving DecidableEq, Repr

/-- An entry of a context's lost list (R75, R148). Its reservation is the mark on the stock entry (R140). -/
structure LostEntry where
  frag : Nat
  spread : Bool
  key : Nat
  lane : Option LaneId
  resolvedKey : Option Nat
  openRecord : Option OpenRecord
  recordsUsed : Nat
  preferred : Option LaneId
  groupFirst : Option LaneId
  groupLast : Option LaneId
  starved : Bool
  deriving DecidableEq, Repr

/-- A repair context in use (R74 to R80, R87, R92). The basis holds fragment indices, ascending; they name
roster entries, whose indices are distinct. -/
structure Context where
  tag : Nat
  orderAddr : Nat
  hint : Nat
  notify : Bool
  profile : Profile
  length : Nat
  windows : Nat
  state : CtxState
  lost : List LostEntry
  roster : List Candidate
  basis : List Nat
  changeCount : BitVec 16
  generation : BitVec 16
  rows : List (List Byte)
  front : Nat
  ordinal : Nat
  margin : Int
  urgency : Nat
  attempts : Nat
  settleDeadline : Option Nat
  stragglerDeadline : Option Nat
  stragglerArmed : Bool
  cancelPending : Bool
  abortPending : Bool
  solveOwed : Bool
  notesAccepted : Nat
  demotions : Nat
  basesSolved : Nat
  outcome : OrderOutcome
  detail : Detail
  deriving DecidableEq, Repr

/-! ## Solver, steering unit, combine unit, delivery unit -/

/-- A lost fragment as a solve records it: its index, and its parity row when it is a parity fragment (R102). -/
structure LostRow where
  frag : Nat
  parity : Option (List Byte)
  deriving DecidableEq, Repr

/-- The solve in flight (R102). -/
structure Solve where
  ctx : CtxId
  changeCount : BitVec 16
  generation : BitVec 16
  basis : List Nat
  rows : List (List Byte)
  lost : List LostRow
  deriving DecidableEq, Repr

/-- The steering unit (R130, R136). `retryDue` is the model's: the lanes on which a blank has become available
for a waiting context and no retry has been made since (log 21). -/
structure SteeringUnit where
  lfsr : BitVec 16
  waitList : List CtxId
  retryDue : List LaneId
  deriving DecidableEq, Repr

/-- The combine arbiter (R111, R112). -/
structure Arbiter where
  ready : Vector (List CtxId) 4
  grantee : Option CtxId
  turnCount : Nat
  turnQuota : Nat
  deriving DecidableEq, Repr

/-- A basis member as a combine records it, with the range that holds the window (R114), and whether its read
has already ended as a failure by the completion timeout (R115). -/
structure Member where
  frag : Nat
  first : Nat
  dataAddr : Nat
  checks : Option Nat
  readFailed : Bool
  deriving DecidableEq, Repr

/-- The window combine in flight (R114). -/
structure Combine where
  ctx : CtxId
  window : Nat
  changeCount : BitVec 16
  generation : BitVec 16
  members : List Member
  rows : List (List Byte)
  validLength : Nat
  begunAt : Nat
  deriving DecidableEq, Repr

/-- A reservation mark: the context and the index of its lost fragment (R140). -/
structure Reservation where
  ctx : CtxId
  frag : Nat
  deriving DecidableEq, Repr

/-- A stock entry (R140). `claim` is the lost fragment for which the combine in flight holds the claim. -/
structure StockEntry where
  blank : Blank
  reservation : Option Reservation
  claim : Option Nat
  deriving DecidableEq, Repr

/-- A lane's part of the delivery unit (R139). -/
structure Lane where
  stock : List StockEntry
  filledTail : Option Nat
  notify : Bool
  deriving DecidableEq, Repr

/-! ## What the endpoint issues -/

/-- What leaves the endpoint, in issue order (R29, R166, R169, R171): a host-memory write, a host-memory read
request, an MSI message, or the value a register read returns. -/
inductive Output where
  | write (a : Nat) (bytes : List Byte)
  | read (a : Nat) (len : Nat)
  | msi
  | reply (value : BitVec 64)
  deriving DecidableEq, Repr

/-! ## The machine -/

/-- The whole state. `out`, `now` and `pending` are the model's own fields (logs 3 and 4); the rest is the
spec's. -/
structure State where
  control : Control
  events : EventUnit
  orderWalker : Walker
  noteWalker : Walker
  blankWalkers : Vector Walker 32
  pen : List PenEntry
  contexts : Vector (Option Context) 48
  solveQueue : List CtxId
  solve : Option Solve
  steering : SteeringUnit
  arbiter : Arbiter
  combine : Option Combine
  lanes : Vector Lane 32
  finishedTail : Option Nat
  /-- the MSI-enabled input of the event unit (R166), driven from outside (log 6) -/
  msiInput : Bool
  /-- everything issued so far, oldest first -/
  out : List Output
  now : Nat
  /-- the commands waiting, the front one next -/
  pending : List Instr
  deriving DecidableEq, Repr

/-- The reasons a step can fault: none. The spec gives no command that the machine does not complete; what goes
wrong is a state (HALTED, R162), a reject cause (R156), a refusal written into an order (R40) or a dropped
note (R53). -/
inductive Fault where
  deriving DecidableEq, Repr

/-- The reasons a step can be refused. -/
inductive Refusal where
  /-- Raised by an arm of `exec` whose command has no meaning yet; safe. No arm raises it. -/
  | notModelled (mnemonic : String)
  /-- Raised by a command whose operand no bus can deliver: a read that returned another number of bytes than
  it asked for, or an "ignored" write that is not one (log 15); safe. -/
  | illFormed
  deriving DecidableEq, Repr

/-! ## Reset values -/

/-- A walker after reset, and whenever it is IDLE (R21, R26). -/
def Walker.rest : Walker :=
  { state := .idle, cursor := .empty, successor := none, deadline := none, wakePending := false,
    readAt := none }

/-- A profile entry after reset: invalid (R8). Its other values are a DESIGN CHOICE (log 7). -/
def Profile.invalid : Profile :=
  { valid := false, k := 0, m := 0, sizeCode := 0, mask := 0, coeffs := [] }

/-- The steering table after reset (R126). -/
def SteeringTable.initial : SteeringTable :=
  { seps := Vector.replicate 31 0
    intervals := Vector.replicate 32 { kind := .normal, lane := 0 }
    spreadBase := 0, spreadRange := 0, seed := 0
    groupEnd := Vector.replicate 32 false }

/-- The timers and the quota after reset: each at the lower bound of its range, idle-to-doze 0 (R157, R167). -/
def Timers.initial : Timers :=
  { settle := 0, straggler := 100, revisit := 1, dozeRevisit := 1000, idle := 0, holdoff := 0,
    orphan := 1000, quota := 1 }

/-- A disabled fence window (R167). Its base and limit are a DESIGN CHOICE (log 7). -/
def FenceWindow.disabled : FenceWindow := { base := 0, limit := 0, enabled := false }

/-- A lane after reset (R139). -/
def Lane.initial : Lane := { stock := [], filledTail := none, notify := false }

/-- The control unit after a cold reset (R167). -/
def Control.initial : Control :=
  { engine := .stopped, cause := .none, anchor := 0, generation := 0
    startReadAt := none, reloadAt := none
    profiles := Vector.replicate 16 Profile.invalid
    steering := SteeringTable.initial
    timers := Timers.initial
    fences := Vector.replicate 4 FenceWindow.disabled
    fenceLock := false, idleDeadline := none, idleElapsed := false }

/-- The event unit after either reset (R165, R166). -/
def EventUnit.initial : EventUnit :=
  { bits := 0, interruptEnable := false, holdoff := none, announcePending := false }

/-- The machine after a cold reset: every block at the value its rule gives (R167; R21, R61, R90, R108, R125, R138,
R152). The MSI-enabled input, the clock, the log and the queue are the model's (logs 2, 3, 4, 6). -/
def State.reset : State :=
  { control := Control.initial
    events := EventUnit.initial
    orderWalker := Walker.rest
    noteWalker := Walker.rest
    blankWalkers := Vector.replicate 32 Walker.rest
    pen := []
    contexts := Vector.replicate 48 none
    solveQueue := []
    solve := none
    steering := { lfsr := 1, waitList := [], retryDue := [] }
    arbiter := { ready := Vector.replicate 4 [], grantee := none, turnCount := 0, turnQuota := 1 }
    combine := none
    lanes := Vector.replicate 32 Lane.initial
    finishedTail := none
    msiInput := false
    out := []
    now := 0
    pending := [] }

end Sys2Proof.Machine
end

