-- ==== Sys2Proof/Machine/Operands.lean ====
section
/-! DEFINITION. The byte images the host and the 6210 share (file 11): how fields are read from bytes, what each
record and table says, the codes of encoded fields, and the bytes of what the 6210 writes. -/

namespace Sys2Proof.Machine

/-! ## Bytes and fields -/

/-- The number that bytes spell, least significant first (Conventions, "Bits and bytes"). -/
def leNat (bytes : List Byte) : Nat :=
  bytes.foldr (fun b acc => b.toNat + 256 * acc) 0

/-- The `n` bytes that spell a number, least significant first. -/
def leBytes : Nat → Nat → List Byte
  | 0, _ => []
  | n + 1, v => BitVec.ofNat 8 v :: leBytes n (v / 256)

/-- `len` bytes of an image from an offset on. -/
def slice (image : List Byte) (offset len : Nat) : List Byte := (image.drop offset).take len

/-- A field read as an unsigned integer of its width (R168). -/
def field (image : List Byte) (offset width : Nat) : Nat := leNat (slice image offset width)

/-- A flag: clear when its byte is 0, else set (R168). -/
def flag (image : List Byte) (offset : Nat) : Bool := field image offset 1 != 0

/-! ## Link words -/

/-- What a link word says (R19, R20). -/
inductive Link where
  | hold
  | next (a : Nat)
  | malformed
  deriving DecidableEq, Repr

/-- A link word read: HOLD is bit 0; a successor's address is non-zero and a multiple of 64 (R19, R20). -/
def readLink (word : Nat) : Link :=
  if word % 2 = 1 then .hold
  else if word = 0 ∨ word % 64 ≠ 0 then .malformed
  else .next word

/-- A link word naming a successor (R19). -/
def linkToBytes (a : Nat) : List Byte := leBytes 8 a

/-- A link word with HOLD set; its other bits are the free value of log 5 (R19, R29). -/
def holdLinkBytes (n : Nat) : List Byte :=
  leBytes 8 (1 + 2 * (Config.holdLinkRest n).toNat)

/-! ## Places in records and in the anchor block (file 11) -/

/-- The order chain's start field. -/
def orderStartOffset : Nat := 0x040
/-- The note chain's start field. -/
def noteStartOffset : Nat := 0x048
/-- The finished head. -/
def finishedHeadOffset : Nat := 0x050
/-- The entry of a lane. -/
def laneEntryOffset (p : LaneId) : Nat := 0x100 + 32 * p.val
/-- The filled head of a lane. -/
def filledHeadOffset (p : LaneId) : Nat := laneEntryOffset p + 0x08
/-- A note's outcome. -/
def noteOutcomeOffset : Nat := 0x28
/-- An order's finished link. -/
def finishedLinkOffset : Nat := 0x080
/-- An order's result state. -/
def resultStateOffset : Nat := 0x088
/-- A delivery record's filled link. -/
def filledLinkOffset : Nat := 0x20

/-! ## Codes (R170) -/

/-- The result state TAKEN. -/
def resultTaken : Nat := 1
/-- The result state FINISHED. -/
def resultFinished : Nat := 2

/-- The code of an order outcome. -/
def OrderOutcome.code : OrderOutcome → Nat
  | .new => 0
  | .complete => 1
  | .unrecoverable => 2
  | .steerFailed => 3
  | .cancelled => 4
  | .aborted => 5
  | .internalMismatch => 6
  | .refused => 7

/-- The code of an order detail. -/
def Detail.code : Detail → Nat
  | .none => 0
  | .loss => 1
  | .singular => 2
  | .forbidden => 3
  | .unresolved => 4
  | .profile => 5
  | .length => 6
  | .lostList => 7
  | .candidateList => 8
  | .dupTag => 9

/-- The code of a note outcome. -/
def NoteOutcome.code : NoteOutcome → Nat
  | .pending => 1
  | .accepted => 2
  | .applied => 3
  | .droppedFormat => 0x10
  | .droppedNotCandidate => 0x11
  | .droppedSourceDead => 0x12
  | .droppedRange => 0x13
  | .droppedLate => 0x14
  | .droppedOverlap => 0x15
  | .droppedFull => 0x16
  | .droppedOrphan => 0x17
  | .droppedStop => 0x18

/-- An outcome other than PENDING, ACCEPTED and APPLIED (R72). -/
def NoteOutcome.isDrop : NoteOutcome → Bool
  | .pending => false
  | .accepted => false
  | .applied => false
  | .droppedFormat => true
  | .droppedNotCandidate => true
  | .droppedSourceDead => true
  | .droppedRange => true
  | .droppedLate => true
  | .droppedOverlap => true
  | .droppedFull => true
  | .droppedOrphan => true
  | .droppedStop => true

/-- A delivery record's status, as the 6210 writes it. -/
inductive DeliveryStatus where
  | filled
  | final
  | closedEarly
  | unused
  | fenced
  deriving DecidableEq, Repr

/-- The code of a delivery record's status. -/
def DeliveryStatus.code : DeliveryStatus → Nat
  | .filled => 1
  | .final => 2
  | .closedEarly => 3
  | .unused => 4
  | .fenced => 5

/-- A note's kind byte; any other value is a bad kind. -/
def noteKindOfCode (code : Nat) : NoteKind :=
  match code with
  | 1 => .data
  | 2 => .withdraw
  | 3 => .cancel
  | _ => .bad

/-- An interval's kind byte; any other value is FORBIDDEN (R126). -/
def intervalKindOfCode (code : Nat) : IntervalKind :=
  match code with
  | 0 => .normal
  | 1 => .spread
  | _ => .forbidden

/-- A lane number read modulo 32 (R126). -/
def laneOfNat (v : Nat) : LaneId := ⟨v % 32, Nat.mod_lt _ (by decide)⟩

/-- The window size a size code selects (R5). -/
def windowSize (code : Nat) : Nat := 4096 * 2 ^ code

/-- The engine state's code in STATUS (file 11, section 11.7). -/
def Engine.code : Engine → Nat
  | .stopped => 0
  | .starting => 1
  | .running => 2
  | .dozing => 3
  | .stopping => 4
  | .halted => 5

/-- The cause's code in STATUS (file 11, section 11.7). -/
def Cause.code : Cause → Nat
  | .none => 0
  | .anchorRead => 1
  | .anchorFence => 2
  | .tableProfile => 3
  | .tableOrder => 4
  | .chainMalformed => 0x10
  | .chainRead => 0x11
  | .fenceOrder => 0x12
  | .fenceNote => 0x13
  | .fenceBlank => 0x14
  | .anchorWrite => 0x15

/-! ## Profiles and windows -/

/-- The window size S of a profile (R5). -/
def Profile.windowBytes (p : Profile) : Nat := windowSize p.sizeCode

/-- The number of fragments n = k + m (R6). -/
def Profile.n (p : Profile) : Nat := p.k + p.m

/-- The parity row P[r] (R4). -/
def Profile.parityRow (p : Profile) (r : Nat) : List Byte := slice p.coeffs (r * p.k) p.k

/-- A profile entry fails validation when it is valid and one of its values is out of range (R7). -/
def Profile.fails (p : Profile) : Bool :=
  p.valid && !(decide (2 ≤ p.k) && decide (p.k ≤ 16) && decide (1 ≤ p.m) && decide (p.m ≤ 6) &&
    decide (p.k + p.m ≤ 20) && decide (p.sizeCode ≤ 4))

/-- The window count W = ceil(L / S) (R9). -/
def windowCount (length S : Nat) : Nat := (length + S - 1) / S

/-- The valid length of window `w`: S, or what is left of the fragment (R9). -/
def validLength (length S w : Nat) : Nat := min S (length - w * S)

/-- The profile entry at the front of 128 bytes (R4). Coefficient bytes past the first m·k are not read. -/
def readProfile (entry : List Byte) : Profile :=
  let k := field entry 0x01 1
  let m := field entry 0x02 1
  { valid := flag entry 0x00, k := k, m := m, sizeCode := field entry 0x03 1
    mask := BitVec.ofNat 4 (field entry 0x04 1)
    coeffs := slice entry 0x10 (m * k) }

/-! ## The anchor block (file 11, section 11.2) -/

/-- What the 6210 reads from an anchor block, the timers and the spread range clamped. -/
structure AnchorImage where
  format : Nat
  interruptEnable : Bool
  lockFlag : Bool
  reseed : Bool
  timers : Timers
  orderStart : Nat
  noteStart : Nat
  blankStarts : Vector Nat 32
  fences : Vector FenceWindow 4
  notify : Vector Bool 32
  steering : SteeringTable
  profiles : Vector Profile 16
  deriving DecidableEq, Repr

/-- A value brought into its range (R157). -/
def clamp (lo hi v : Nat) : Nat := max lo (min hi v)

/-- The timers and the quota of the header, clamped (R157). -/
def readTimers (header : List Byte) : Timers :=
  let idle := field header 0x018 4
  { settle := clamp 0 1000000 (field header 0x008 4)
    straggler := clamp 100 10000000 (field header 0x00C 4)
    revisit := clamp 1 1000 (field header 0x010 4)
    dozeRevisit := clamp 1000 1000000 (field header 0x014 4)
    idle := if idle = 0 then 0 else clamp 10000 100000000 idle
    holdoff := clamp 0 10000 (field header 0x01C 4)
    orphan := clamp 1000 10000000 (field header 0x020 4)
    quota := clamp 1 128 (field header 0x024 4) }

/-- A fence window entry; bits 0 to 11 of base and limit are taken as 0 (R163). -/
def readFence (entry : List Byte) : FenceWindow :=
  { base := BitVec.ofNat 64 (field entry 0x00 8 / 4096 * 4096)
    limit := BitVec.ofNat 64 (field entry 0x08 8 / 4096 * 4096)
    enabled := flag entry 0x10 }

/-- A spread range clamped so that no draw exceeds 65,535 (R127). -/
def clampSpread (base range : Nat) : Nat := min range (65536 - base)

/-- The steering table of an image (R126), from its region at 0x500 and the lane entries at 0x100. -/
def readSteering (table lanes : List Byte) : SteeringTable :=
  let base := field table 0x80 2
  { seps := tabulate fun i => field table (2 * i.val) 2
    intervals := tabulate fun i =>
      { kind := intervalKindOfCode (field table (0x40 + 2 * i.val) 1)
        lane := laneOfNat (field table (0x41 + 2 * i.val) 1) }
    spreadBase := base
    spreadRange := clampSpread base (field table 0x84 4)
    seed := field table 0x88 2
    groupEnd := tabulate fun p => flag lanes (32 * p.val + 0x11) }

/-- The anchor block's image read (R168). -/
def readAnchor (image : List Byte) : AnchorImage :=
  let lanes := slice image 0x100 (32 * 32)
  let fences := slice image 0x080 (4 * 32)
  let profiles := slice image 0x800 (16 * 128)
  { format := field image 0x000 4
    interruptEnable := flag image 0x004
    lockFlag := flag image 0x005
    reseed := flag image 0x006
    timers := readTimers image
    orderStart := field image orderStartOffset 8
    noteStart := field image noteStartOffset 8
    blankStarts := tabulate fun p => field lanes (32 * p.val) 8
    fences := tabulate fun i => readFence (slice fences (32 * i.val) 32)
    notify := tabulate fun p => flag lanes (32 * p.val + 0x10)
    steering := readSteering (slice image 0x500 768) lanes
    profiles := tabulate fun j => readProfile (slice profiles (128 * j.val) 128) }

/-- Some sep_i is greater than sep_(i+1) (R127). -/
def SteeringTable.decreases (t : SteeringTable) : Bool :=
  (List.range 30).any fun i => decide (t.seps.toList.getD i 0 > t.seps.toList.getD (i + 1) 0)

/-! ## The repair order (R33; file 11, section 11.3) -/

/-- A lost slot as read. -/
structure LostSlot where
  frag : Nat
  spread : Bool
  key : Nat
  deriving DecidableEq, Repr

/-- A candidate slot as read; rank hints above 3 are taken as 3. -/
structure CandidateSlot where
  frag : Nat
  rank : Nat
  deriving DecidableEq, Repr

/-- The host-side fields of an order as the intake unit reads them (R33). -/
structure RepairOrder where
  tag : Nat
  profileIndex : Nat
  hint : Nat
  notify : Bool
  length : Nat
  lostCount : Nat
  lost : List LostSlot
  candCount : Nat
  cands : List CandidateSlot
  deriving DecidableEq, Repr

/-- A repair order read. Slots are read as far as their counts reach, and no further than 6 and 19 (R33). -/
def readOrder (image : List Byte) : RepairOrder :=
  let lostCount := field image 0x00D 1
  let candCount := field image 0x00E 1
  { tag := field image 0x008 2
    profileIndex := field image 0x00A 1
    hint := min 3 (field image 0x00B 1)
    notify := flag image 0x00C
    length := field image 0x010 4
    lostCount := lostCount
    lost := (List.range (min lostCount 6)).map fun i =>
      { frag := field image (0x020 + 4 * i) 1
        spread := flag image (0x021 + 4 * i)
        key := field image (0x022 + 4 * i) 2 }
    candCount := candCount
    cands := (List.range (min candCount 19)).map fun i =>
      { frag := field image (0x040 + 2 * i) 1
        rank := min 3 (field image (0x041 + 2 * i) 1) } }

/-! ## The note (R52; file 11, section 11.4) and the delivery record (file 11, section 11.5) -/

/-- A note read (R52). -/
def readNote (image : List Byte) : Note :=
  { kind := noteKindOfCode (field image 0x08 1)
    tag := field image 0x0A 2
    frag := field image 0x0C 1
    first := field image 0x10 4
    count := field image 0x14 4
    dataAddr := field image 0x18 8
    checksAddr := field image 0x20 8 }

/-- A delivery record read at its take; its capacity is the field plus one (R140, R170). -/
def readBlank (addr : Nat) (image : List Byte) : Blank :=
  { addr := addr, buffer := field image 0x08 8, checkArea := field image 0x10 8
    capacity := field image 0x18 1 + 1 }

/-! ## Requests at 4 KiB boundaries (R171) -/

/-- A request cut at 4 KiB boundaries; `fuel` is at least the number of pieces. DESIGN CHOICE (log 33): the pieces come by
ascending address. R171 has them keep the order of R169, which does not order the pieces of one request. -/
def splitFrom : Nat → Nat → Nat → List (Nat × Nat)
  | 0, _, _ => []
  | fuel + 1, a, len =>
    if len = 0 then []
    else
      let n := min len (4096 - a % 4096)
      (a, n) :: splitFrom fuel (a + n) (len - n)

/-- The pieces, address and length, of a request of `len` bytes at `a` (R171), by ascending address (log 33). -/
def splitRequest (a : Nat) (len : Nat) : List (Nat × Nat) := splitFrom (len / 4096 + 2) a len

/-- The 64-bit address a request goes out with (R171). Address arithmetic is ordinary integer arithmetic (Conventions); past
the top of the address space the page is a free value and the place within the page stays (log 18). -/
def requestAddress (a : Nat) : Nat :=
  if a < Config.addressSpace then a else 4096 * (Config.pagePastTop (a / 4096)).toNat + a % 4096

/-- The write requests of a write. -/
def writeRequests (a : Nat) (bytes : List Byte) : List Output :=
  (splitRequest a bytes.length).map fun p => .write (requestAddress p.1) (slice bytes (p.1 - a) p.2)

/-- The read requests of a read. -/
def readRequests (a : Nat) (len : Nat) : List Output :=
  (splitRequest a len).map fun p => .read (requestAddress p.1) p.2

end Sys2Proof.Machine
end

