-- ==== Sys2Proof/Machine/Basis.lean ====
section
/-! DEFINITION. What is computed inside one context: usability, margin and class (R17, R18), landed windows (R65),
the ranking (R91), selections of a basis (R92 to R96, R99), the straggler condition (R97, R98) and range lists (R62
to R66). -/

namespace Sys2Proof.Machine

/-! ## Candidates and windows -/

/-- A candidate is usable when AWAITED or LANDING (R17). -/
def Candidate.usable (c : Candidate) : Bool := c.state == .awaited || c.state == .landing

/-- A range holds a window. -/
def Range.holds (r : Range) (w : Nat) : Bool := decide (r.first ≤ w) && decide (w < r.first + r.count)

/-- The range of a candidate that holds a window (R65). -/
def Candidate.rangeFor (c : Candidate) (w : Nat) : Option Range := c.ranges.find? fun r => r.holds w

/-- The front window of a candidate is landed (R65). -/
def Candidate.landed (c : Candidate) (front : Nat) : Bool := (c.rangeFor front).isSome

/-- The candidate of a context with a fragment index. -/
def Context.candidate (x : Context) (frag : Nat) : Option Candidate :=
  x.roster.find? fun c => c.frag == frag

/-- The basis members as roster entries. -/
def Context.members (x : Context) : List Candidate := x.roster.filter fun c => x.basis.contains c.frag

/-- The usable candidates. -/
def Context.usables (x : Context) : List Candidate := x.roster.filter Candidate.usable

/-- The usable spares. -/
def Context.usableSpares (x : Context) : List Candidate := x.usables.filter fun c => c.role == .spare

/-! ## Margin and class (R17, R18) -/

/-- min(hint, margin, 3) for a margin of 0 or more (R18). -/
def urgencyOf (hint : Nat) (margin : Int) : Nat := min hint (min margin.toNat 3)

/-- The margin recomputed, and with it the class, which a DRAINING context and a margin below 0 leave as it was
(R17, R18, R86). -/
def Context.remargin (x : Context) : Context :=
  let margin : Int := (x.usables.length : Int) - (x.profile.k : Int)
  { x with
    margin := margin
    urgency := if margin < 0 ∨ x.state = .draining then x.urgency else urgencyOf x.hint margin }

/-! ## The ranking (R91) -/

/-- The keys of the ranking, each smaller value ahead: landed, front landing sequence, demotion count, rank hint,
fragment index. -/
def rankKeys (front : Nat) (c : Candidate) : List Nat :=
  match c.rangeFor front with
  | some r => [0, r.ordinal, c.demotions, c.rank, c.frag]
  | none => [1, 0, c.demotions, c.rank, c.frag]

/-- The first list is ahead at the first key on which the two differ, or they do not differ. -/
def keysAhead : List Nat → List Nat → Bool
  | [], _ => true
  | _ :: _, [] => false
  | a :: as, b :: bs => decide (a < b) || (a == b && keysAhead as bs)

/-- A candidate ranks ahead of another (R91). -/
def ranksAhead (front : Nat) (a b : Candidate) : Bool :=
  keysAhead (rankKeys front a) (rankKeys front b)

/-- Candidates, the best-ranked first. -/
def ranked (front : Nat) (cs : List Candidate) : List Candidate :=
  cs.insertionSort fun a b => ranksAhead front a b = true

/-! ## Selections (R92 to R96, R99) -/

/-- The basis made of these fragments: roles given, slots arranged by ascending index, change count raised by
one (R92). -/
def Context.setBasis (x : Context) (frags : List Nat) : Context :=
  { x with
    basis := frags.insertionSort (· ≤ ·)
    changeCount := x.changeCount + 1
    roster := x.roster.map fun c =>
      { c with role := if frags.contains c.frag then .basis else .spare } }

/-- A selection started: attempt count 0, tried marks only on the candidates it places (R92). -/
def Context.startSelection (x : Context) (frags placed : List Nat) : Context :=
  Context.setBasis
    { x with
      attempts := 0
      roster := x.roster.map fun c => { c with tried := placed.contains c.frag } }
    frags

/-- The first selection, at the settle end: the k best-ranked usable candidates (R82, R93). -/
def Context.endSettle (x : Context) : Context :=
  let chosen := ((ranked x.front x.usables).take x.profile.k).map Candidate.frag
  { x.startSelection chosen chosen with state := .solving, settleDeadline := none }

/-- The usable candidates with window 0 landed are k or more (R82). -/
def Context.settleLanded (x : Context) : Bool :=
  decide (x.profile.k ≤ (x.usables.filter fun c => c.landed 0).length)

/-- Candidates become WITHDRAWN or CORRUPT: range lists cleared, out of the basis, role SPARE (R68, R76, R77). -/
def Context.lose (x : Context) (frags : List Nat) (state : CandState) : Context :=
  { x with
    basis := x.basis.filter fun f => !frags.contains f
    roster := x.roster.map fun c =>
      if frags.contains c.frag then { c with state := state, ranges := [], role := .spare } else c }

/-- The places of removed members filled by the best-ranked usable spares: a new selection (R94). -/
def Context.rebase (x : Context) : Context :=
  let placed := ((ranked x.front x.usableSpares).take (x.profile.k - x.basis.length)).map Candidate.frag
  x.startSelection (x.basis ++ placed) placed

/-- The member given up and the spare taken at a singular result, if there are two such (R96). -/
def Context.replacement (x : Context) : Option (Nat × Nat) :=
  match (ranked x.front (x.members.filter Candidate.tried)).getLast?,
        (ranked x.front (x.usableSpares.filter fun c => !c.tried)).head? with
  | some out, some into => some (out.frag, into.frag)
  | _, _ => none

/-- One member replaced by one spare, which is marked tried (R96, steps 1, 2 and 4). -/
def Context.replace (x : Context) (out into : Nat) : Context :=
  Context.setBasis
    { x with roster := x.roster.map fun c => { c with tried := c.tried || c.frag == into } }
    ((x.basis.filter fun f => f != out) ++ [into])

/-- The stragglers, worst-ranked first (R97, R99). -/
def Context.stragglers (x : Context) : List Candidate :=
  (ranked x.front (x.members.filter fun c => !c.landed x.front)).reverse

/-- The usable spares that have the front window landed, best-ranked first (R99). -/
def Context.landedSpares (x : Context) : List Candidate :=
  ranked x.front (x.usableSpares.filter fun c => c.landed x.front)

/-- The swap at a straggler expiry: pairs of the two lists, demotions counted, a new selection (R99). -/
def Context.swapStragglers (x : Context) : Context :=
  let pairs := List.zip x.stragglers x.landedSpares
  let outs := pairs.map fun p => p.1.frag
  let ins := pairs.map fun p => p.2.frag
  Context.startSelection
    { x with
      demotions := min 255 (x.demotions + pairs.length)
      roster := x.roster.map fun c =>
        if outs.contains c.frag then { c with demotions := c.demotions + 1 } else c }
    ((x.basis.filter fun f => !outs.contains f) ++ ins) ins

/-! ## Stragglers (R97, R98) -/

/-- Every basis member has the front window landed (R65, R109). -/
def Context.survivorsLanded (x : Context) : Bool := x.members.all fun c => c.landed x.front

/-- The straggler condition: the front is blocked and a usable spare has the front window landed (R97). -/
def Context.stragglerCondition (x : Context) : Bool :=
  x.state == .active && !x.survivorsLanded && x.usableSpares.any fun c => c.landed x.front

/-- The straggler timer after an event that can change its condition (R98). -/
def Context.evalStraggler (x : Context) (now interval : Nat) (frontAdvanced : Bool) : Context :=
  if x.stragglerCondition then
    if x.stragglerArmed && !frontAdvanced then x
    else { x with stragglerArmed := true, stragglerDeadline := some (now + interval) }
  else { x with stragglerArmed := false, stragglerDeadline := none }

/-- The straggler timer stopped at an exit from ACTIVE (R79). -/
def Context.disarm (x : Context) : Context :=
  { x with stragglerArmed := false, stragglerDeadline := none }

/-! ## Range lists (R62 to R66) -/

/-- The run is ill-formed for a context of W windows (R63). -/
def Note.runIllFormed (n : Note) (windows : Nat) : Bool :=
  n.count == 0 || decide (n.count > Config.maxRun) || decide (n.first + n.count > windows) ||
    n.dataAddr == 0 || n.dataAddr % 64 != 0 || n.checksAddr % 4 != 0

/-- Two runs of windows share one at or above the front (R62, check 5). -/
def liveOverlap (front first count first' count' : Nat) : Bool :=
  decide (max front (max first first') < min (first + count) (first' + count'))

/-- The outcome of the checks of R62 on a DATA note; `none` when all six pass. -/
def dataCheck (x : Context) (n : Note) : Option NoteOutcome :=
  match x.candidate n.frag with
  | none => some .droppedNotCandidate
  | some c =>
    if !c.usable then some .droppedSourceDead
    else if n.runIllFormed x.windows then some .droppedRange
    else if n.first + n.count ≤ x.front then some .droppedLate
    else if c.ranges.any (fun r => liveOverlap x.front n.first n.count r.first r.count) then
      some .droppedOverlap
    else if Config.rangeCapacity ≤ c.ranges.length then some .droppedFull
    else none

/-- The context after a DATA note is accepted: ordinal, range, candidate, counter (R64, steps 1 to 4). -/
def Context.acceptData (x : Context) (n : Note) : Context :=
  let ordinal := x.ordinal + 1
  let r : Range :=
    { first := n.first, count := n.count, dataAddr := n.dataAddr
      checks := if n.checksAddr = 0 then none else some n.checksAddr, ordinal := ordinal }
  { x with
    ordinal := ordinal
    notesAccepted := min 65535 (x.notesAccepted + 1)
    roster := x.roster.map fun c =>
      if c.frag = n.frag then
        { c with
          state := if c.state = .awaited then .landing else c.state
          ranges := c.ranges.orderedInsert (fun a b => a.first ≤ b.first) r }
      else c }

/-- The front advanced, and every range whose last window is below it removed (R66, R121). -/
def Context.advanceFront (x : Context) (front : Nat) : Context :=
  { x with
    front := front
    roster := x.roster.map fun c =>
      { c with ranges := c.ranges.filter fun r => decide (front < r.first + r.count) } }

/-! ## The lost list -/

/-- Every lost entry has a lane (R75). -/
def Context.steered (x : Context) : Bool := x.lost.all fun e => e.lane.isSome

/-- The generator row of a fragment (R6). -/
def Profile.generatorRow (p : Profile) (f : Nat) : List Byte :=
  if f < p.k then unitRow p.k f else p.parityRow (f - p.k)

end Sys2Proof.Machine
end

