-- ==== Sys2Proof/Decode.lean ====
section
/-! DEFINITION. From what arrives at the endpoint to a command: the table's words (there are none) and the
register writes and reads of R171. -/

namespace Sys2Proof

/-- The command that an opcode-table word spells. No row of `spec/opcode_table.json` gives bits, so no word
spells one. -/
def decodeTableWord (_nbits _w : Nat) : Option Instr := none

/-- An access the endpoint serves: 4 or 8 bytes, aligned to its width, within the 4 KiB space (R171). -/
def accessServed (offset width : Nat) : Bool :=
  (width == 4 || width == 8) && offset % width == 0 && decide (offset + width ≤ 4096)

/-- The command a code written to byte 0 of COMMAND carries, if it is one (R154; file 11, section 11.7). -/
def commandOfCode (code : Nat) : Option Instr :=
  match code with
  | 1 => some .start
  | 2 => some .stop
  | 3 => some .reload
  | 4 => some .wake
  | 5 => some .reset
  | _ => none

/-- The command that a register write of `width` bytes at `offset` is (R154, R155, R171): an 8-byte write of
ANCHOR, a command code in byte 0 of COMMAND, or else a write that is ignored. -/
def registerWriteCommand (offset width value : Nat) : Instr :=
  if accessServed offset width then
    if offset = 0x00 ∧ width = 8 then .anchorRegisterWrite (BitVec.ofNat 64 value)
    else if offset = 0x08 then
      (commandOfCode (value % 256)).getD (.ignoredRegisterWrite offset width value)
    else .ignoredRegisterWrite offset width value
  else .ignoredRegisterWrite offset width value

/-- The command that a register read of `width` bytes at `offset` is: one that includes byte 0 of EVENTS is EVENTS_READ;
every other read is none, because it changes nothing (R165, R171; log 22). What a read returns is
`Machine.registerRead`. -/
def registerReadCommand (offset width : Nat) : Option Instr :=
  if accessServed offset width && offset == 0x18 then some .eventsRead else none

end Sys2Proof
end

