-- ==== Sys2Proof/Machine/Flags.lean ====
section
/-! DEFINITION. The flag bits of the block: the eight EVENTS bits with the MSI messages their rising sends (R165,
R166), and the STATUS word (R153; file 11, section 11.7). -/

namespace Sys2Proof.Machine

/-- The bits of EVENTS (R165). -/
inductive EventBit where
  | orderFinished
  | laneFilled
  | laneStarved
  | noteDropped
  | reloadDone
  | reloadRejected
  | startRejected
  | engineStopped
  deriving DecidableEq, Repr

/-- The position of a bit in EVENTS (file 11, section 11.7). -/
def EventBit.index : EventBit → Nat
  | .orderFinished => 0
  | .laneFilled => 1
  | .laneStarved => 2
  | .noteDropped => 3
  | .reloadDone => 4
  | .reloadRejected => 5
  | .startRejected => 6
  | .engineStopped => 7

/-- EVENTS with one bit set. -/
def EventBit.mask (b : EventBit) : BitVec 8 := 1#8 <<< b.index

/-- More outputs issued, after all earlier ones. -/
def emit (os : List Output) (s : State) : State := { s with out := s.out ++ os }

/-- One MSI message, issued when the MSI-enabled input is set; when it is clear the event unit acts as if the
message had been sent (R166). -/
def sendMessage (s : State) : State := if s.msiInput then emit [.msi] s else s

/-- The holdoff started with the loaded value. A holdoff of 0 expires at the event that starts it (R166). -/
def startHoldoff (s : State) : State :=
  { s with events := { s.events with
      holdoff := if s.control.timers.holdoff = 0 then none else some (s.now + s.control.timers.holdoff) } }

/-- What follows a bit's rise while the interrupt enable is set (R166). -/
def announce (s : State) : State :=
  match s.events.holdoff with
  | none => startHoldoff (sendMessage s)
  | some _ => { s with events := { s.events with announcePending := true } }

/-- An event bit set by its cause. A bit already set changes nothing (R165, R166). -/
def raise (b : EventBit) (s : State) : State :=
  if s.events.bits.getLsbD b.index then s
  else
    let t := { s with events := { s.events with bits := s.events.bits ||| b.mask } }
    if t.events.interruptEnable then announce t else t

/-- The number of contexts in use (R73). -/
def contextsInUse (s : State) : Nat := s.contexts.toList.countP Option.isSome

/-- The STATUS register (R153; file 11, section 11.7). -/
def statusWord (s : State) : BitVec 64 :=
  BitVec.ofNat 64
    (s.control.engine.code + 2 ^ 8 * s.control.cause.code + 2 ^ 16 * contextsInUse s +
      2 ^ 24 * s.pen.length + 2 ^ 32 * s.control.generation.toNat)

/-- The value of the 8-byte register at an offset of the space; COMMAND and every other offset read 0 (R154,
R155, R171). -/
def registerValue (s : State) (offset : Nat) : BitVec 64 :=
  if offset = 0x00 then s.control.anchor
  else if offset = 0x10 then statusWord s
  else if offset = 0x18 then BitVec.zeroExtend 64 s.events.bits
  else 0

/-- What a register read of `width` bytes at `offset` returns; an access not served returns 0 (R171). A read that
includes byte 0 of EVENTS also clears EVENTS: that is the command EVENTS_READ. -/
def registerRead (s : State) (offset width : Nat) : BitVec 64 :=
  if accessServed offset width then
    let word := registerValue s (offset / 8 * 8)
    if width = 8 then word
    else BitVec.ofNat 64 (word.toNat / 2 ^ (8 * (offset % 8)) % 2 ^ 32)
  else 0

end Sys2Proof.Machine
end

