-- ==== Sys2Proof/Machine/Ops.lean ====
section
/-! DEFINITION. The operations every block shares: effects made in order until a halt, the fence check and host-memory
writes, halting, the walkers' steps, doze, the append onto a chain the 6210 writes, and the updates of one context, one
lane, the solve queue and the ready lists. -/

namespace Sys2Proof.Machine

/-! ## Effects in order -/

/-- The engine is HALTED. -/
def State.halted (s : State) : Bool := s.control.engine == .halted

/-- Effects of one event made one after another; from a halt on, the rest of the event is not made (R162). -/
def inOrder (fs : List (State → State)) (s : State) : State :=
  fs.foldl (fun t f => if t.halted then t else f t) s

/-- The walkers walk: RUNNING or DOZING (R153). -/
def State.walking (s : State) : Bool :=
  s.control.engine == .running || s.control.engine == .dozing

/-- Contexts make progress and host-memory writes are made: RUNNING, DOZING or STOPPING (R153). -/
def State.working (s : State) : Bool := s.walking || s.control.engine == .stopping

/-- The clock at a deadline that is reached (log 3). -/
def reachTime (t : Nat) (s : State) : State := { s with now := max s.now t }

/-! ## Fences (R163) -/

/-- An enabled window covers an address. -/
def FenceWindow.covers (w : FenceWindow) (a : Nat) : Bool :=
  w.enabled && decide (w.base.toNat ≤ a) && decide (a < w.limit.toNat)

/-- Fence checking is on while at least one window is enabled. -/
def checkingOn (fences : List FenceWindow) : Bool := fences.any fun w => w.enabled

/-- Every address from `a` up to `stop` lies in some enabled window. Each turn passes one window whole, so as
many turns as there are windows are enough. -/
def coveredFrom (fences : List FenceWindow) : Nat → Nat → Nat → Bool
  | 0, a, stop => decide (stop ≤ a)
  | fuel + 1, a, stop =>
    if stop ≤ a then true
    else match fences.find? fun w => w.covers a with
      | none => false
      | some w => coveredFrom fences fuel w.limit.toNat stop

/-- Every byte of `len` bytes at `a` lies inside some enabled window (R36, R163). -/
def covered (fences : List FenceWindow) (a : Nat) (len : Nat) : Bool :=
  coveredFrom fences fences.length a (a + len)

/-- `len` bytes at `a` lie inside one enabled window (R54). -/
def insideOne (fences : List FenceWindow) (a : Nat) (len : Nat) : Bool :=
  fences.any fun w => w.enabled && decide (w.base.toNat ≤ a) && decide (a + len ≤ w.limit.toNat)

/-- The loaded fence windows. -/
def State.fenceList (s : State) : List FenceWindow := s.control.fences.toList

/-- A write may be issued: fence checking is off, or each of its bytes lies inside an enabled window (R163). -/
def writePermitted (s : State) (a : Nat) (len : Nat) : Bool :=
  !checkingOn s.fenceList || covered s.fenceList a len

/-! ## Halt (R162) -/

/-- Every walker IDLE, its deadline stopped, its cursor and successor emptied (R26). -/
def idleWalkers (s : State) : State :=
  { s with
    orderWalker := Walker.rest, noteWalker := Walker.rest
    blankWalkers := Vector.replicate 32 Walker.rest }

/-- A halt cause raised: HALTED, the cause written, the walkers IDLE, the idle deadline stopped, a reload in
flight discarded, ENGINE_STOPPED set (R26, R158, R160, R162). A second cause finds the engine HALTED and has no
effect. -/
def halt (cause : Cause) (s : State) : State :=
  if s.halted then s
  else
    let t := idleWalkers s
    raise .engineStopped
      { t with control := { t.control with
          engine := .halted, cause := cause, reloadAt := none, idleDeadline := none
          idleElapsed := false } }

/-! ## Host-memory requests (R163, R169, R171) -/

/-- A host-memory write, fence-checked before it is issued; a refused one is not made and raises `cause`. -/
def writeHost (cause : Cause) (a : Nat) (bytes : List Byte) (s : State) : State :=
  if writePermitted s a bytes.length then emit (writeRequests a bytes) s else halt cause s

/-- A field of a record or table written as one write of its width (R169). -/
def writeField (cause : Cause) (a : Nat) (width value : Nat) (s : State) : State :=
  writeHost cause a (leBytes width value) s

/-- A 6210-side link written with HOLD set (R29). -/
def writeHoldLink (cause : Cause) (a : Nat) (s : State) : State :=
  writeHost cause a (holdLinkBytes s.out.length) s

/-- A link or head field written with a record's address, HOLD clear (R29). -/
def writeLinkTo (cause : Cause) (a target : Nat) (s : State) : State :=
  writeHost cause a (linkToBytes target) s

/-- A host-memory read issued; reads are not fence-checked (R163). -/
def issueRead (a : Nat) (len : Nat) (s : State) : State := emit (readRequests a len) s

/-! ## Walkers (R21 to R27) -/

/-- A walker's state. -/
def State.walker (s : State) : WalkerId → Walker
  | .order => s.orderWalker
  | .note => s.noteWalker
  | .blank p => s.blankWalkers[p]

/-- A walker replaced. -/
def setWalker (w : WalkerId) (x : Walker) (s : State) : State :=
  match w with
  | .order => { s with orderWalker := x }
  | .note => { s with noteWalker := x }
  | .blank p => { s with blankWalkers := s.blankWalkers.set p x }

/-- The 34 walkers. -/
def allWalkers : List WalkerId :=
  [.order, .note] ++ (List.finRange 32).map WalkerId.blank

/-- The same change made at every walker. -/
def mapWalkers (f : Walker → Walker) (s : State) : State :=
  { s with
    orderWalker := f s.orderWalker, noteWalker := f s.noteWalker
    blankWalkers := s.blankWalkers.map f }

/-- The interval after which a held tail is re-read, by the engine state (R24). -/
def revisitInterval (s : State) : Nat :=
  if s.control.engine = .dozing then s.control.timers.dozeRevisit else s.control.timers.revisit

/-- A walker entering HELD at a cursor, its deadline started (R24). -/
def heldAt (cursor : Cursor) (s : State) : Walker :=
  { state := .held, cursor := cursor, successor := none
    deadline := some (s.now + revisitInterval s), wakePending := false, readAt := none }

/-- A walker entering NEXT with its successor known (R21). -/
def nextAt (cursor : Cursor) (successor : Nat) : Walker :=
  { state := .next, cursor := cursor, successor := some successor, deadline := none
    wakePending := false, readAt := none }

/-- The start field's place in the anchor block (R19; file 11, section 11.2). -/
def startFieldAddr (s : State) : WalkerId → Nat
  | .order => s.control.anchor.toNat + orderStartOffset
  | .note => s.control.anchor.toNat + noteStartOffset
  | .blank p => s.control.anchor.toNat + laneEntryOffset p

/-- The place of the link word a walker holds: the start field, or the host-side link, which every record has at
its front (R22, R28; file 11). -/
def heldLinkAddr (s : State) (w : WalkerId) : Option Nat :=
  match (s.walker w).cursor with
  | .empty => none
  | .startField => some (startFieldAddr s w)
  | .record a => some a

/-- A revisit issued: one 8-byte read of the held link word (R24, R25, R27). -/
def issueRevisit (w : WalkerId) (s : State) : State :=
  match heldLinkAddr s w with
  | none => s
  | some a =>
    issueRead a 8 (setWalker w
      { s.walker w with state := .revisiting, deadline := none, wakePending := false
                        readAt := some s.now } s)

/-- What WAKE does at one walker (R27). -/
def wakeWalker (w : WalkerId) (s : State) : State :=
  match (s.walker w).state with
  | .held => issueRevisit w s
  | .revisiting => setWalker w { s.walker w with wakePending := true } s
  | .next => s
  | .reading => s
  | .idle => s

/-- Walkers in HELD restart their deadlines with the interval of the engine state (R24). -/
def restartHeld (s : State) : State :=
  mapWalkers
    (fun x => if x.state = .held then { x with deadline := some (s.now + revisitInterval s) } else x) s

/-- The length of the records a walker takes (R23). -/
def recordLength : WalkerId → Nat
  | .order => 512
  | .note => 64
  | .blank _ => 64

/-- A walker in NEXT has leave to take its successor (R23). -/
def hasLeave (s : State) : WalkerId → Bool
  | .order => decide (contextsInUse s < 48)
  | .note => true
  | .blank p => decide (s.lanes[p].stock.length < Config.stockCapacity)

/-! ## Doze (R160) -/

/-- The idle deadline started one loaded idle-to-doze interval ahead, none when that is 0; the mark cleared. -/
def startIdle (s : State) : State :=
  { s with control := { s.control with
      idleElapsed := false
      idleDeadline :=
        if s.control.timers.idle = 0 then none else some (s.now + s.control.timers.idle) } }

/-- The return from DOZING to RUNNING: held walkers restart, the idle deadline is started afresh. -/
def leaveDoze (s : State) : State :=
  startIdle (restartHeld { s with control := { s.control with engine := .running } })

/-- A record taken by any walker: it ends DOZING, or restarts the idle deadline (R23, R160). -/
def recordTaken (s : State) : State :=
  if s.control.engine = .dozing then leaveDoze s else startIdle s

/-- The conditions of the entry to DOZING (R160). -/
def dozeReady (s : State) : Bool :=
  s.control.engine == .running && s.control.idleElapsed && s.control.timers.idle != 0 &&
    contextsInUse s == 0 && s.pen.isEmpty && s.control.reloadAt.isNone

/-- The entry to DOZING, where its conditions hold: held walkers restart at the doze revisit interval (R24, R160). -/
def enterDoze (s : State) : State :=
  if dozeReady s then restartHeld { s with control := { s.control with engine := .dozing } } else s

/-! ## Appending to the 6210's chains (R29, R30) -/

/-- Step 2 and 3 of an append onto the finished chain. -/
def linkFinished (order : Nat) (s : State) : State :=
  inOrder
    [fun t => match t.finishedTail with
      | none => writeLinkTo .anchorWrite (t.control.anchor.toNat + finishedHeadOffset) order t
      | some tail => writeLinkTo .fenceOrder (tail + finishedLinkOffset) order t,
     fun t => { t with finishedTail := some order }] s

/-- A lane's part replaced. -/
def setLane (p : LaneId) (x : Lane) (s : State) : State := { s with lanes := s.lanes.set p x }

/-- An append onto a lane's filled chain, and LANE_FILLED when the lane's notify flag is set (R147). -/
def linkFilled (p : LaneId) (record : Nat) (s : State) : State :=
  inOrder
    [fun t => match t.lanes[p].filledTail with
      | none => writeLinkTo .anchorWrite (t.control.anchor.toNat + filledHeadOffset p) record t
      | some tail => writeLinkTo .fenceBlank (tail + filledLinkOffset) record t,
     fun t => setLane p { t.lanes[p] with filledTail := some record } t,
     fun t => if t.lanes[p].notify then raise .laneFilled t else t] s

/-- What is written into a delivery record when it leaves the 6210's hands (file 11, section 11.5). -/
structure RecordFields where
  status : DeliveryStatus
  tag : Nat
  frag : Nat
  key : Nat
  first : Nat
  count : Nat
  deriving DecidableEq, Repr

/-- The fields of a record never opened for a fragment (R143, R150). -/
def RecordFields.unopened (status : DeliveryStatus) : RecordFields :=
  { status := status, tag := 0, frag := 0, key := 0, first := 0, count := 0 }

/-- A delivery record's 6210-side fields written, its filled link with HOLD set, and the record appended to its
lane's filled chain (R143, R146, R147, R150). -/
def returnRecord (p : LaneId) (record : Nat) (f : RecordFields) (s : State) : State :=
  inOrder
    [writeField .fenceBlank (record + 0x28) 1 f.status.code,
     writeField .fenceBlank (record + 0x29) 1 p.val,
     writeField .fenceBlank (record + 0x2A) 2 f.tag,
     writeField .fenceBlank (record + 0x2C) 1 f.frag,
     writeField .fenceBlank (record + 0x2E) 2 f.key,
     writeField .fenceBlank (record + 0x30) 4 f.first,
     writeField .fenceBlank (record + 0x34) 2 f.count,
     writeHoldLink .fenceBlank (record + filledLinkOffset),
     linkFilled p record] s

/-! ## Notes -/

/-- A note's outcome written, and NOTE_DROPPED set after a drop (R53, R70, R72). -/
def writeNoteOutcome (note : Nat) (o : NoteOutcome) (s : State) : State :=
  inOrder
    [writeField .fenceNote (note + noteOutcomeOffset) 1 o.code,
     fun t => if o.isDrop then raise .noteDropped t else t] s

/-! ## The context table -/

/-- A slot of the context table replaced. -/
def setContext (c : CtxId) (x : Option Context) (s : State) : State :=
  { s with contexts := s.contexts.set c x }

/-- A change made to a context in use. -/
def modifyContext (c : CtxId) (f : Context → Context) (s : State) : State :=
  match s.contexts[c] with
  | none => s
  | some x => setContext c (some (f x)) s

/-- The FREE context with the lowest number (R41). -/
def lowestFree (s : State) : Option CtxId :=
  (List.finRange 48).find? fun c => s.contexts[c].isNone

/-- The context in use that holds a tag (R39, R55). -/
def holderOf (s : State) (tag : Nat) : Option CtxId :=
  (List.finRange 48).find? fun c =>
    match s.contexts[c] with
    | none => false
    | some x => x.tag == tag

/-- The contexts in use, by number. -/
def usedContexts (s : State) : List CtxId :=
  (List.finRange 48).filter fun c => s.contexts[c].isSome

/-- A lost entry of a context changed. -/
def modifyLost (c : CtxId) (i : Nat) (f : LostEntry → LostEntry) (s : State) : State :=
  modifyContext c (fun x => { x with lost := x.lost.modify i f }) s

/-! ## The solve queue and the ready lists (R101, R110, R111) -/

/-- A context joins the back of the solve queue, unless it is on it or its solve is in flight (R101). What an idle solver
then does is `enterQueue`'s. -/
def enqueueSolve (c : CtxId) (s : State) : State :=
  if s.solveQueue.contains c || (s.solve.map Solve.ctx) == some c then s
  else { s with solveQueue := s.solveQueue ++ [c] }

/-- A context leaves the solve queue. -/
def dequeueSolve (c : CtxId) (s : State) : State := { s with solveQueue := s.solveQueue.erase c }

/-- The ready list of a class. -/
def classIndex (urgency : Nat) : Fin 4 := ⟨min urgency 3, by omega⟩

/-- A context leaves every ready list. -/
def unready (c : CtxId) (s : State) : State :=
  { s with arbiter := { s.arbiter with ready := s.arbiter.ready.map fun l => l.erase c } }

/-- A context is appended at the back of the ready list of a class. -/
def makeReady (c : CtxId) (urgency : Nat) (s : State) : State :=
  { s with arbiter := { s.arbiter with
      ready := s.arbiter.ready.set (classIndex urgency)
        (s.arbiter.ready[classIndex urgency] ++ [c]) } }

/-- A context stands on a ready list. -/
def onReadyList (s : State) (c : CtxId) : Bool := s.arbiter.ready.toList.any fun l => l.contains c

/-- A context whose class changed moves to the back of the solve queue, or to the back of its new class's ready
list, wherever it stands (R101, R110). -/
def moveClass (c : CtxId) (urgency : Nat) (s : State) : State :=
  let t := if s.solveQueue.contains c then { s with solveQueue := s.solveQueue.erase c ++ [c] } else s
  if onReadyList t c then makeReady c urgency (unready c t) else t

/-! ## Waiting contexts and blanks (R134, R136, R140) -/

/-- A blank in stock bears neither mark (R140). -/
def StockEntry.available (e : StockEntry) : Bool := e.reservation.isNone && e.claim.isNone

/-- A waiting context's wait involves a lane: one of its fragments has that lane, or has none and the lane lies in
its group (R136). -/
def Context.waitsOn (x : Context) (p : LaneId) : Bool :=
  x.lost.any fun e =>
    match e.lane with
    | some q => q == p
    | none =>
      match e.groupFirst, e.groupLast with
      | some a, some b => decide (a ≤ p) && decide (p ≤ b)
      | _, _ => false

/-- The contexts on the steering wait list whose wait involves a lane, in list order (R136). -/
def waitersOn (s : State) (p : LaneId) : List CtxId :=
  s.steering.waitList.filter fun c =>
    match s.contexts[c] with
    | none => false
    | some x => x.waitsOn p

/-- A blank has become available on a lane: a retry is due when a waiting context's wait involves it (R136). The mark
stands until the attempts of this event are made (`retryWaiting`; log 21). -/
def blankAvailable (p : LaneId) (s : State) : State :=
  if (waitersOn s p).isEmpty || s.steering.retryDue.contains p then s
  else { s with steering := { s.steering with retryDue := s.steering.retryDue ++ [p] } }

/-- The stock entry reserved for a fragment (R134). -/
def reservedEntry (stock : List StockEntry) (c : CtxId) (frag : Nat) : Option StockEntry :=
  stock.find? fun e => e.reservation == some { ctx := c, frag := frag }

end Sys2Proof.Machine
end

