-- ==== Sys2Proof/Machine/Ready.lean ====
section
/-! DEFINITION. Readiness and starvation (R109, R110, R148), the claims of a combine and its beginning (R114, R115,
R124), the end of a turn (R113) and the grant (R112). -/

namespace Sys2Proof.Machine

/-! ## Blanks in a lane's stock -/

/-- The first entry that meets a test, changed. -/
def changeFirst (test : StockEntry → Bool) (f : StockEntry → StockEntry) : List StockEntry → List StockEntry
  | [] => []
  | e :: es => if test e then f e :: es else e :: changeFirst test f es

/-- A lane's stock changed. -/
def modifyStock (p : LaneId) (f : List StockEntry → List StockEntry) (s : State) : State :=
  setLane p { s.lanes[p] with stock := f s.lanes[p].stock } s

/-- The number of available blanks in a lane's stock (R140). -/
def availableCount (s : State) (p : LaneId) : Nat := s.lanes[p].stock.countP StockEntry.available

/-- The blank reserved for a lost fragment in its lane's stock, if there is one (R109). -/
def reservedFor (s : State) (c : CtxId) (e : LostEntry) : Option StockEntry :=
  e.lane.bind fun p => reservedEntry s.lanes[p].stock c e.frag

/-- The fragments of a context on a lane that have no open record and no reservation (R109, R148). -/
def needingOn (s : State) (c : CtxId) (x : Context) (p : LaneId) : Nat :=
  x.lost.countP fun e => e.lane == some p && e.openRecord.isNone && (reservedFor s c e).isNone

/-! ## Readiness (R109) and starvation (R148) -/

/-- A lost fragment can receive its next output window (R109). -/
def canReceive (s : State) (c : CtxId) (x : Context) (e : LostEntry) : Bool :=
  match e.lane with
  | none => false
  | some p =>
    e.openRecord.isSome || (reservedFor s c e).isSome || decide (needingOn s c x p ≤ availableCount s p)

/-- A context is ready: ACTIVE, its survivors landed, its destinations there (R109). -/
def isReady (s : State) (c : CtxId) : Bool :=
  match s.contexts[c] with
  | none => false
  | some x => x.state == .active && x.survivorsLanded && x.lost.all fun e => canReceive s c x e

/-- A lost fragment is starved (R148). -/
def isStarved (s : State) (c : CtxId) (x : Context) (e : LostEntry) : Bool :=
  match e.lane with
  | none => false
  | some p =>
    x.state == .active && x.survivorsLanded && e.openRecord.isNone && (reservedFor s c e).isNone &&
      decide (availableCount s p < needingOn s c x p)

/-- A fragment found starved with its mark clear: the mark and LANE_STARVED are set (R148). -/
def markStarved (c : CtxId) (i : Nat) (s : State) : State :=
  match s.contexts[c] with
  | none => s
  | some x =>
    match x.lost[i]? with
    | none => s
    | some e =>
      if isStarved s c x e && !e.starved then
        raise .laneStarved (modifyLost c i (fun e => { e with starved := true }) s)
      else s

/-- A context's readiness re-evaluated: onto or off its ready list, and its fragments tested for starvation. The
grantee's is read only at its completions (R110, R148; log 10). -/
def reevaluateOne (s : State) (c : CtxId) : State :=
  match s.contexts[c] with
  | none => s
  | some x =>
    if s.arbiter.grantee = some c then s
    else
      let t :=
        if isReady s c then (if onReadyList s c then s else makeReady c x.urgency s)
        else if onReadyList s c then unready c s else s
      (List.range x.lost.length).foldl (fun u i => markStarved c i u) t

/-- Every context's readiness re-evaluated, by ascending number (R110; log 8). -/
def reevaluate (s : State) : State := (List.finRange 48).foldl reevaluateOne s

/-! ## Claims (R114, R124) -/

/-- One blank claimed for a fragment: the one reserved for it, or else the oldest available one (R114). -/
def claimBlank (p : LaneId) (c : CtxId) (frag : Nat) (s : State) : State :=
  modifyStock p
    (fun stock =>
      match reservedEntry stock c frag with
      | some _ =>
        changeFirst (fun e => e.reservation == some { ctx := c, frag := frag })
          (fun e => { e with claim := some frag }) stock
      | none => changeFirst StockEntry.available (fun e => { e with claim := some frag }) stock) s

/-- The claim of one lost fragment, needed when it has no open record (R114). -/
def claimFor (c : CtxId) (s : State) (e : LostEntry) : State :=
  match e.lane, e.openRecord with
  | some p, none => claimBlank p c e.frag s
  | _, _ => s

/-- The claims of a lane released: the marks cleared, and a blank then available said so (R124, R136, R149). -/
def releaseClaimsOn (s : State) (p : LaneId) : State :=
  let freed := s.lanes[p].stock.any fun e => e.claim.isSome && e.reservation.isNone
  let t := modifyStock p (fun stock => stock.map fun e => { e with claim := none }) s
  if freed then blankAvailable p t else t

/-- Every claim of the combine released (R124). -/
def releaseClaims (s : State) : State := (List.finRange 32).foldl releaseClaimsOn s

/-! ## The beginning of a window combine (R114, R115) -/

/-- A basis member with its range that holds the window (R114). -/
def recordMember (w : Nat) (c : Candidate) : Option Member :=
  (c.rangeFor w).map fun r =>
    { frag := c.frag, first := r.first, dataAddr := r.dataAddr, checks := r.checks, readFailed := false }

/-- The members in ascending fragment index with their ranges (R114). -/
def recordMembers (x : Context) : List Member :=
  x.basis.filterMap fun f => (x.candidate f).bind (recordMember x.front)

/-- The reads of one member's window: its data at the place R10 gives, and its four check bytes when its range is
checked (R115). DESIGN CHOICE (log 31): the data is read before the check; the manual gives no order. -/
def issueMemberReads (S w len : Nat) (s : State) (m : Member) : State :=
  let t := issueRead (m.dataAddr + (w - m.first) * S) len s
  match m.checks with
  | none => t
  | some a => issueRead (a + 4 * (w - m.first)) 4 t

/-- What the combine unit records at the beginning for a context (R114). -/
def combineFor (c : CtxId) (x : Context) (now : Nat) : Combine :=
  { ctx := c, window := x.front, changeCount := x.changeCount, generation := x.generation
    members := recordMembers x, rows := x.rows
    validLength := validLength x.length x.profile.windowBytes x.front, begunAt := now }

/-- The grantee's next window combine begins: turn count raised, the record made, blanks claimed, reads issued
(R114, R115). DESIGN CHOICE: the claims are taken in lost-list order (log 32), and the members' reads are issued in
ascending fragment index (log 31); the manual gives neither order. -/
def beginCombine (c : CtxId) (s : State) : State :=
  match s.contexts[c] with
  | none => s
  | some x =>
    let op := combineFor c x s.now
    let t := { s with combine := some op
                      arbiter := { s.arbiter with turnCount := s.arbiter.turnCount + 1 } }
    let u := x.lost.foldl (claimFor c) t
    op.members.foldl (issueMemberReads x.profile.windowBytes op.window op.validLength) u

/-! ## The end of a turn (R113) -/

/-- The arbiter without a grantee. -/
def ungrant (s : State) : State := { s with arbiter := { s.arbiter with grantee := none } }

/-- After a completion: the grantee's next combine begins, or its turn ends, and it joins the back of its class's
list when it is ready with its quota used (R113). -/
def endOfTurn (c : CtxId) (s : State) : State :=
  match s.contexts[c] with
  | none => ungrant s
  | some x =>
    if isReady s c then
      if s.arbiter.turnCount < s.arbiter.turnQuota then beginCombine c s
      else makeReady c x.urgency (ungrant s)
    else ungrant s

/-! ## The grant (R112) -/

/-- The head of the most urgent non-empty ready list (R112). -/
def mostUrgentReady (s : State) : Option CtxId := s.arbiter.ready.toList.findSome? List.head?

/-- A context granted the unit for a new turn; its first combine begins (R112). -/
def grantTurn (c : CtxId) (s : State) : State :=
  let t := unready c s
  beginCombine c
    { t with arbiter := { t.arbiter with
        grantee := some c, turnCount := 0, turnQuota := t.control.timers.quota } }

/-- With no grantee and a list not empty, the unit is granted, and the readiness that its claims change is looked at
(R110, R112). -/
def grantNext (s : State) : State :=
  if s.arbiter.grantee.isSome then s
  else match mostUrgentReady s with
    | none => s
    | some c => reevaluate (grantTurn c s)

end Sys2Proof.Machine
end

