-- ==== Sys2Proof/Machine/SolveQueue.lean ====
section
/-! DEFINITION. The beginning of a solve (R102): which queued context an idle solver takes, what it records, and the entry
to the queue, at which an idle solver begins (R101). -/

namespace Sys2Proof.Machine

/-- The queued context with the lowest class, the one nearest the front among several (R102). -/
def mostUrgentOf (s : State) : List CtxId → Option CtxId
  | [] => none
  | c :: cs =>
    match mostUrgentOf s cs with
    | none => some c
    | some d =>
      let urgency := fun (k : CtxId) => (s.contexts[k]).elim 3 Context.urgency
      if urgency d < urgency c then some d else some c

/-- What the solver records of a lost fragment (R102). -/
def Profile.lostRow (p : Profile) (f : Nat) : LostRow :=
  { frag := f, parity := if f < p.k then none else some (p.parityRow (f - p.k)) }

/-- What the solver records at a solve's beginning (R102). -/
def solveFor (c : CtxId) (x : Context) : Solve :=
  { ctx := c, changeCount := x.changeCount, generation := x.generation, basis := x.basis
    rows := x.basis.map x.profile.generatorRow
    lost := x.lost.map fun e => x.profile.lostRow e.frag }

/-- A solve of a context begun: off the queue, recorded, the solver BUSY (R102). -/
def beginSolve (c : CtxId) (s : State) : State :=
  match s.contexts[c] with
  | none => s
  | some x => { dequeueSolve c s with solve := some (solveFor c x) }

/-- An idle solver with contexts on its queue begins a solve; a busy one does nothing (R102). -/
def beginNext (s : State) : State :=
  if s.solve.isSome then s
  else match mostUrgentOf s s.solveQueue with
    | none => s
    | some c => beginSolve c s

/-- A context enters the queue, and an idle solver begins at that entry (R101, R102). -/
def enterQueue (c : CtxId) (s : State) : State := beginNext (enqueueSolve c s)

end Sys2Proof.Machine
end

