-- ==== Sys2Proof/Machine/Drain.lean ====
section
/-! DEFINITION. How a context ends: the entry to DRAINING (R87), the closing of open records (R46, R146), the result and
the finish append (R40, R47 to R49), the freeing (R88, R149), the UNUSED blanks and the end of STOPPING (R150, R159); and
what follows when candidates are lost (R86, R94). -/

namespace Sys2Proof.Machine

/-! ## Entry to DRAINING (R87) -/

/-- The entry to DRAINING with an outcome and a detail; a context already there keeps its own (R87). The context
leaves the solve queue, the ready lists and the steering wait list (R81, R137). -/
def enterDraining (c : CtxId) (o : OrderOutcome) (d : Detail) (s : State) : State :=
  match s.contexts[c] with
  | none => s
  | some x =>
    if x.state = .draining then s
    else
      let t := setContext c (some { x with
        state := .draining, outcome := o, detail := d, settleDeadline := none
        stragglerDeadline := none, stragglerArmed := false }) s
      let u := unready c (dequeueSolve c t)
      { u with steering := { u.steering with waitList := u.steering.waitList.erase c } }

/-! ## Records of a fragment (R146) -/

/-- The open record of a lost fragment closed with a status and linked on its lane's filled chain (R46, R146). -/
def closeFragment (c : CtxId) (i : Nat) (status : DeliveryStatus) (s : State) : State :=
  match s.contexts[c] with
  | none => s
  | some x =>
    match x.lost[i]? with
    | none => s
    | some e =>
      match e.lane, e.openRecord with
      | some p, some r =>
        inOrder
          [returnRecord p r.blank.addr
            { status := status, tag := x.tag, frag := e.frag, key := e.resolvedKey.getD 0
              first := r.first, count := r.count },
           modifyLost c i fun e => { e with openRecord := none }] s
      | _, _ => s

/-! ## The result of an order (R47, R48) -/

/-- What the finish unit writes into an order's result area (R34). -/
structure OrderResult where
  outcome : OrderOutcome
  detail : Detail
  front : Nat
  basesSolved : Nat
  demotions : Nat
  notesAccepted : Nat
  /-- the eight bytes of each per-lost slot written -/
  slots : List (List Byte)
  deriving DecidableEq, Repr

/-- A per-lost result slot: lane used (0xFF is NONE), fragment outcome, resolved key, records used (file 11, section
11.3; R170). -/
def resultSlot (lane : Option LaneId) (fragmentOutcome key used : Nat) : List Byte :=
  leBytes 1 (match lane with | none => 0xFF | some p => p.val) ++ leBytes 1 fragmentOutcome ++
    leBytes 2 key ++ leBytes 4 used

/-- The code of a fragment outcome: DELIVERED, PARTIAL or NONE by the front at finish (R48, R170). -/
def fragmentOutcome (front windows : Nat) : Nat :=
  if front = windows then 2 else if front = 0 then 0 else 1

/-- The result of a drained context (R47, R48). -/
def Context.result (x : Context) : OrderResult :=
  { outcome := x.outcome, detail := x.detail, front := x.front, basesSolved := x.basesSolved
    demotions := x.demotions, notesAccepted := x.notesAccepted
    slots := x.lost.map fun e =>
      resultSlot e.lane (fragmentOutcome x.front x.windows) (e.resolvedKey.getD 0) e.recordsUsed }

/-- The result of a refused order with `n` lost slots written (R40). -/
def refusalResult (d : Detail) (n : Nat) : OrderResult :=
  { outcome := .refused, detail := d, front := 0, basesSolved := 0, demotions := 0, notesAccepted := 0
    slots := List.replicate n (resultSlot none 0 0 0) }

/-- The result fields written, in the order of their offsets (R34, R49; log 13). -/
def writeResult (order : Nat) (r : OrderResult) (s : State) : State :=
  inOrder
    ([writeField .fenceOrder (order + 0x089) 1 r.outcome.code,
      writeField .fenceOrder (order + 0x08A) 1 r.detail.code,
      writeField .fenceOrder (order + 0x08C) 4 r.front,
      writeField .fenceOrder (order + 0x090) 1 r.basesSolved,
      writeField .fenceOrder (order + 0x091) 1 r.demotions,
      writeField .fenceOrder (order + 0x092) 2 r.notesAccepted] ++
     r.slots.mapIdx fun i bytes => writeHost .fenceOrder (order + 0x0A0 + 8 * i) bytes) s

/-- The finish append of an order: result fields, FINISHED, its finished link with HOLD, the link that places it on
the finished chain, and ORDER_FINISHED when its notify flag is set (R40, R49). -/
def finishAppend (order : Nat) (r : OrderResult) (notify : Bool) (s : State) : State :=
  inOrder
    [writeResult order r,
     writeField .fenceOrder (order + resultStateOffset) 1 resultFinished,
     writeHoldLink .fenceOrder (order + finishedLinkOffset),
     linkFinished order,
     fun t => if notify then raise .orderFinished t else t] s

/-! ## The freeing (R88, R149) -/

/-- A reservation of the context. -/
def StockEntry.reservedBy (e : StockEntry) (c : CtxId) : Bool :=
  match e.reservation with
  | none => false
  | some r => r.ctx == c

/-- A context's reservations on a lane released; a blank then available is said so (R136, R149). -/
def releaseReservationsOn (c : CtxId) (s : State) (p : LaneId) : State :=
  let freed := s.lanes[p].stock.any fun e => e.reservedBy c && e.claim.isNone
  let t := modifyStock p
    (fun stock => stock.map fun e => if e.reservedBy c then { e with reservation := none } else e) s
  if freed then blankAvailable p t else t

/-- The context returns to FREE, and its reservations are released (R73, R88). -/
def freeContext (c : CtxId) (s : State) : State :=
  (List.finRange 32).foldl (releaseReservationsOn c) (setContext c none s)

/-- A solve or a combine of the context is in flight (R45). -/
def inFlight (s : State) (c : CtxId) : Bool :=
  (s.solve.map Solve.ctx) == some c || (s.combine.map Combine.ctx) == some c

/-- The drain's last part: open records closed CLOSED_EARLY in lost-list order, the finish append, the freeing
(R46, R49, R88). -/
def finishContext (c : CtxId) (s : State) : State :=
  match s.contexts[c] with
  | none => s
  | some x =>
    inOrder
      ((List.range x.lost.length).map (fun i => closeFragment c i .closedEarly) ++
        [fun t => finishAppend x.orderAddr x.result x.notify t,
         freeContext c]) s

/-- A context's drain has nothing to wait for (R45). -/
def drainDue (s : State) (c : CtxId) : Bool :=
  match s.contexts[c] with
  | none => false
  | some x => x.state == .draining && !inFlight s c

/-- The drain of a context finished when it has nothing to wait for (R45). -/
def finishIfDue (c : CtxId) (s : State) : State := if drainDue s c then finishContext c s else s

/-! ## STOPPING (R150, R159) -/

/-- One blank of a lane linked UNUSED (R150). -/
def linkUnused (p : LaneId) (e : StockEntry) (s : State) : State :=
  inOrder
    [modifyStock p fun stock => stock.erase e,
     returnRecord p e.blank.addr (RecordFields.unopened .unused)] s

/-- A lane's blanks that bear neither mark linked UNUSED, in take order (R150). -/
def linkUnusedOn (p : LaneId) (s : State) : State :=
  inOrder ((s.lanes[p].stock.filter StockEntry.available).map (linkUnused p)) s

/-- STOPPING ends when no context is in use (R159). -/
def enterStopped (s : State) : State :=
  if contextsInUse s = 0 then
    raise .engineStopped { s with control := { s.control with engine := .stopped } }
  else s

/-- In STOPPING, at the end of an event: unmarked blanks linked UNUSED, then STOPPED when the last context has been
freed (R150, R159). DESIGN CHOICE (log 19): the event's CLOSED_EARLY and finish appends come before the UNUSED ones; the
manual lets either be first (R147). -/
def concludeStop (s : State) : State :=
  if s.control.engine = .stopping then
    inOrder ((List.finRange 32).map linkUnusedOn ++ [enterStopped]) s
  else s

/-! ## Candidates lost (R86, R94) -/

/-- A context leaves ACTIVE for SOLVING and joins the back of the solve queue (R85, R94). -/
def resolveAgain (c : CtxId) (s : State) : State :=
  enterQueue c (unready c (modifyContext c (fun x => { x.disarm with state := .solving }) s))

/-- What follows in a context whose candidates were just lost: UNRECOVERABLE LOSS when the margin is below 0; else
the re-basis when a basis member was among them, and the state it leads to (R86, R94). -/
def afterLoss (c : CtxId) (member : Bool) (s : State) : State :=
  match s.contexts[c] with
  | none => s
  | some x =>
    if x.margin < 0 then enterDraining c .unrecoverable .loss s
    else if member then
      let t := modifyContext c Context.rebase s
      match x.state with
      | .settling => t
      | .solving => t
      | .steering => modifyContext c (fun y => { y with solveOwed := true }) t
      | .active => resolveAgain c t
      | .draining => s
    else s

/-- Candidates become WITHDRAWN or CORRUPT: the usable count, margin and class follow, then the re-basis or the
drain, then the move to a new class (R68, R76, R86, R118). -/
def loseCandidates (c : CtxId) (frags : List Nat) (state : CandState) (s : State) : State :=
  match s.contexts[c] with
  | none => s
  | some x =>
    let y := (x.lose frags state).remargin
    let t := afterLoss c (x.basis.any fun f => frags.contains f) (setContext c (some y) s)
    if y.urgency = x.urgency then t else moveClass c y.urgency t

/-- The straggler condition of an ACTIVE context evaluated (R98). -/
def evaluateStraggler (c : CtxId) (frontAdvanced : Bool) (s : State) : State :=
  modifyContext c
    (fun x =>
      if x.state = .active then x.evalStraggler s.now s.control.timers.straggler frontAdvanced else x) s

/-- A context enters ACTIVE, where its straggler condition is evaluated afresh (R83, R84, R98). -/
def enterActive (c : CtxId) (s : State) : State :=
  evaluateStraggler c false (modifyContext c (fun x => { x.disarm with state := .active }) s)

end Sys2Proof.Machine
end

