-- ==== Sys2Proof/Machine/Steering.lean ====
section
/-! DEFINITION. The steering unit (chapter 8): lookup and groups (R128, R129), the LFSR and spread draws (R130, R131),
resolution (R132, R133), assignment attempts (R134, R135), and the command STEERING_RETRY (R136). -/

namespace Sys2Proof.Machine

/-! ## Lookup and groups -/

/-- The boundary sep_i, with sep_0 taken as 0 and sep_32 as 65,536 (R128). -/
def SteeringTable.sep (t : SteeringTable) (i : Nat) : Nat :=
  if i = 0 then 0 else if 32 ≤ i then 65536 else t.seps.toList.getD (i - 1) 0

/-- Interval i covers a key (R128). -/
def SteeringTable.coversKey (t : SteeringTable) (i key : Nat) : Bool :=
  decide (t.sep i ≤ key) && decide (key < t.sep (i + 1))

/-- The interval entry of a key (R128). -/
def SteeringTable.lookup (t : SteeringTable) (key : Nat) : Option Interval :=
  ((List.finRange 32).find? fun i => t.coversKey i.val key).map fun i => t.intervals[i]

/-- A lane ends a group (R129). -/
def SteeringTable.endsGroup (t : SteeringTable) (p : LaneId) : Bool := t.groupEnd[p] || p == 31

/-- The last lane of a lane's group: the first lane at or above it that ends a group (R129). -/
def SteeringTable.groupLast (t : SteeringTable) (p : LaneId) : LaneId :=
  ((List.finRange 32).find? fun q => decide (p ≤ q) && t.endsGroup q).getD 31

/-- The first lane of a lane's group: the lane after the nearest lane below it that ends a group, or lane 0
(R129): the lowest lane with no group end from it up to, but not including, `p`. -/
def SteeringTable.groupFirst (t : SteeringTable) (p : LaneId) : LaneId :=
  ((List.finRange 32).find? fun q =>
    (List.finRange 32).all fun r => !(decide (q ≤ r) && decide (r < p) && t.endsGroup r)).getD 0

/-- The fallback order of a preferred lane within its group: upward to the last lane, then from the first lane to
the lane before it (R129). -/
def fallbackOrder (preferred first last : LaneId) : List LaneId :=
  ((List.finRange 32).filter fun q => decide (preferred ≤ q) && decide (q ≤ last)) ++
    ((List.finRange 32).filter fun q => decide (first ≤ q) && decide (q < preferred))

/-! ## The LFSR and spread draws -/

/-- The feedback bit: the exclusive OR of bits 15, 13, 12 and 10 (R130). -/
def lfsrFeedback (v : BitVec 16) : Bool :=
  (v.getLsbD 15 ^^ v.getLsbD 13) ^^ (v.getLsbD 12 ^^ v.getLsbD 10)

/-- A step of the LFSR (R130). -/
def lfsrStep (v : BitVec 16) : BitVec 16 :=
  (v <<< 1) ||| (if lfsrFeedback v then 1#16 else 0#16)

/-- The LFSR's value at a load: the seed, or 1 for a seed of 0 (R127, R130). -/
def lfsrSeed (seed : Nat) : BitVec 16 :=
  if BitVec.ofNat 16 seed = 0 then 1 else BitVec.ofNat 16 seed

/-- The key drawn with an LFSR value (R131). -/
def drawnKey (t : SteeringTable) (v : BitVec 16) : Nat := t.spreadBase + v.toNat % t.spreadRange

/-! ## Resolution (R132) -/

/-- What resolution gives for a fragment. -/
inductive Resolution where
  | resolved (key : Nat) (preferred : LaneId)
  | failed (d : Detail)
  deriving DecidableEq, Repr

/-- Draws until one is accepted, at most as many discarded as are allowed (R131, R132). -/
def draw (t : SteeringTable) : Nat → BitVec 16 → BitVec 16 × Resolution
  | 0, v => (v, .failed .unresolved)
  | n + 1, v =>
    let v' := lfsrStep v
    let key := drawnKey t v'
    match t.lookup key with
    | some { kind := .normal, lane := p } => (v', .resolved key p)
    | _ => draw t n v'

/-- A fragment's draws; a spread range of 0 fails before any (R131, R132). -/
def drawFor (t : SteeringTable) (v : BitVec 16) : BitVec 16 × Resolution :=
  if t.spreadRange = 0 then (v, .failed .unresolved) else draw t Config.drawLimit v

/-- The resolution of one fragment, by its key's interval and its spread flag (R132). -/
def resolveEntry (t : SteeringTable) (v : BitVec 16) (e : LostEntry) : BitVec 16 × Resolution :=
  match t.lookup e.key with
  | some { kind := .normal, lane := p } =>
    if e.spread then drawFor t v else (v, .resolved e.key p)
  | some { kind := .spread, lane := _ } => drawFor t v
  | _ => (v, .failed .forbidden)

/-- What a resolution writes into its lost entry (R132). -/
def LostEntry.resolve (e : LostEntry) (t : SteeringTable) (key : Nat) (p : LaneId) : LostEntry :=
  { e with
    resolvedKey := some key, preferred := some p
    groupFirst := some (t.groupFirst p), groupLast := some (t.groupLast p) }

/-- A whole lost list after resolution: the LFSR, the entries, and the failure that ended it, if one did (R132,
R133). -/
structure Resolved where
  lfsr : BitVec 16
  lost : List LostEntry
  failure : Option Detail
  deriving DecidableEq, Repr

/-- Resolution in lost-list order; the entries from a failing one on stay as they were (R132, R133). -/
def resolveAll (t : SteeringTable) : BitVec 16 → List LostEntry → Resolved
  | v, [] => { lfsr := v, lost := [], failure := none }
  | v, e :: es =>
    match resolveEntry t v e with
    | (v', .failed d) => { lfsr := v', lost := e :: es, failure := some d }
    | (v', .resolved key p) =>
      let rest := resolveAll t v' es
      { rest with lost := e.resolve t key p :: rest.lost }

/-! ## Assignment (R134, R135) -/

/-- A lane's stock holds an available blank. -/
def hasAvailable (s : State) (p : LaneId) : Bool := s.lanes[p].stock.any StockEntry.available

/-- The oldest available blank of a lane reserved for a fragment (R134). -/
def reserveOn (p : LaneId) (c : CtxId) (frag : Nat) (s : State) : State :=
  modifyStock p
    (changeFirst StockEntry.available fun e => { e with reservation := some { ctx := c, frag := frag } }) s

/-- The lane a fragment can reserve on: its own, or the first of its fallback order with an available blank
(R134). -/
def laneToReserve (s : State) (e : LostEntry) : Option LaneId :=
  match e.lane with
  | some p => if hasAvailable s p then some p else none
  | none =>
    match e.preferred, e.groupFirst, e.groupLast with
    | some p, some a, some b => (fallbackOrder p a b).find? fun q => hasAvailable s q
    | _, _, _ => none

/-- One fragment of an attempt: its lane and its reservation, or neither (R134). -/
def assignFragment (c : CtxId) (s : State) (i : Nat) : State :=
  match s.contexts[c] with
  | none => s
  | some x =>
    match x.lost[i]? with
    | none => s
    | some e =>
      match laneToReserve s e with
      | none => s
      | some p => reserveOn p c e.frag (modifyLost c i (fun e => { e with lane := some p }) s)

/-- A fragment of the context waits: it has no reservation. -/
def fragmentWaits (s : State) (c : CtxId) : Bool :=
  match s.contexts[c] with
  | none => false
  | some x => x.lost.any fun e => (reservedFor s c e).isNone

/-- Every reservation of a waiting context released; this release calls for no retry (R135, R136). -/
def dropReservations (c : CtxId) (s : State) : State :=
  { s with lanes := s.lanes.map fun l =>
      { l with stock := l.stock.map fun e => if e.reservedBy c then { e with reservation := none } else e } }

/-- A context steered leaves STEERING: to SOLVING when a solve is owed, else to ACTIVE (R84, R135). -/
def leaveSteering (c : CtxId) (s : State) : State :=
  let t := { s with steering := { s.steering with waitList := s.steering.waitList.erase c } }
  match t.contexts[c] with
  | none => t
  | some x =>
    if x.solveOwed then
      enterQueue c (modifyContext c (fun x => { x with state := .solving, solveOwed := false }) t)
    else enterActive c t

/-- A context waits: on the wait list, with LANE_STARVED at its pass's first wait (R135, R136). -/
def waitSteering (c : CtxId) (s : State) : State :=
  let t := dropReservations c s
  if t.steering.waitList.contains c then t
  else
    raise .laneStarved
      { t with steering := { t.steering with waitList := t.steering.waitList ++ [c] } }

/-- An assignment attempt of a context in STEERING (R134, R135). -/
def attemptSteering (c : CtxId) (s : State) : State :=
  match s.contexts[c] with
  | none => s
  | some x =>
    if x.state = .steering then
      let t := (List.range x.lost.length).foldl (assignFragment c) s
      if fragmentWaits t c then waitSteering c t else leaveSteering c t
    else s

/-- The pass at the entry to STEERING: resolution, then the first attempt, or the failure (R84, R132, R133). -/
def enterSteering (c : CtxId) (s : State) : State :=
  match s.contexts[c] with
  | none => s
  | some x =>
    let r := resolveAll s.control.steering s.steering.lfsr x.lost
    let t := setContext c (some { x with state := .steering, lost := r.lost })
      { s with steering := { s.steering with lfsr := r.lfsr } }
    match r.failure with
    | some d => enterDraining c .steerFailed d t
    | none => attemptSteering c t

/-! ## Retries, and the end of an event -/

/-- The waiting contexts whose wait involves a lane on which this event has made a blank available, in wait-list order
(R136). -/
def waitersDue (s : State) : List CtxId :=
  s.steering.waitList.filter fun c =>
    match s.contexts[c] with
    | none => false
    | some x => s.steering.retryDue.any x.waitsOn

/-- The attempts that this event calls for, in wait-list order, each context once and each attempt seeing what those
before it left (R136). The marks are then clear (log 21). -/
def retryWaiting (s : State) : State :=
  (waitersDue s).foldl (fun u c => attemptSteering c u)
    { s with steering := { s.steering with retryDue := [] } }

/-- What the steering unit and the arbiter do at the end of an event: the retries it calls for (R136), the readiness of
every context (R110), and the grant it makes possible (R112). The retries come first. DESIGN CHOICE (log 8): R136 and R149
let either be first. -/
def arbitrate (s : State) : State := grantNext (reevaluate (retryWaiting s))

/-- STEERING_RETRY (R136): when a retry is still due on the lane, an attempt for every waiting context whose wait
involves it, in wait-list order, and what its readiness leads to. In the part the retry happens at the event that makes the
blank available, and so it does in those events of the model (log 1). -/
def execSteeringRetry (p : LaneId) (s : State) : Host.Outcome State Fault Refusal :=
  .next <|
    if s.walking && s.steering.retryDue.contains p then
      let t := { s with steering := { s.steering with retryDue := s.steering.retryDue.erase p } }
      grantNext (reevaluate ((waitersOn t p).foldl (fun u c => attemptSteering c u) t))
    else s

end Sys2Proof.Machine
end

