-- ==== Sys2Proof/WellFormed.lean ====
section
/-! DEFINITION. Which commands can arrive: a read returns the bytes asked for, or fails; a pen position lies
in the pen; a combine reads at most 16 members; a write called ignored is one the endpoint ignores. -/

namespace Sys2Proof

/-- A read of `n` bytes returned `n` bytes, or failed. -/
def ReadResult.sized (n : Nat) : ReadResult → Bool
  | .failed => true
  | .data bytes => bytes.length == n

/-- A read of at most `n` bytes. -/
def ReadResult.sizedAtMost (n : Nat) : ReadResult → Bool
  | .failed => true
  | .data bytes => decide (bytes.length ≤ n)

/-- Well-formed commands (R23, R52, R115, R154, R155, R156, R171). What a `combineCompletion` must answer exactly
is known only from the combine in flight; `Machine.readsFit` tests that. -/
def Instr.wellFormed : Instr → Bool
  | .start => true
  | .stop => true
  | .reload => true
  | .wake => true
  | .reset => true
  | .coldReset => true
  | .anchorRegisterWrite _ => true
  | .eventsRead => true
  | .ignoredRegisterWrite offset width value =>
      decide (value < 256 ^ width) &&
        decide (registerWriteCommand offset width value = .ignoredRegisterWrite offset width value)
  | .startReadCompletion r => r.sized 4096
  | .reloadReadCompletion r => r.sized 4096
  | .leaveToTake _ => true
  | .orderTake r => r.sized 512
  | .noteTake r => r.sized 64
  | .blankTake _ r => r.sized 64
  | .revisitDeadline _ => true
  | .revisitCompletion _ r => r.sized 8
  | .readCompletionTimeout (.survivor i) => decide (i < 16)
  | .readCompletionTimeout _ => true
  | .settleDeadline _ => true
  | .orphanExpiry i => decide (i < 32)
  | .stragglerExpiry _ => true
  | .solveBegin => true
  | .solveCompletion => true
  | .steeringRetry _ => true
  | .combineGrant => true
  | .combineCompletion reads _ =>
      decide (reads.length ≤ 16) &&
        reads.all (fun r => r.data.sizedAtMost 65536 && r.check.sizedAtMost 4)
  | .drainFinish _ => true
  | .idleDeadlineExpiry => true
  | .dozeEntry => true
  | .holdoffExpiry => true

end Sys2Proof
end

