-- ==== Sys2Proof/Machine/Walkers.lean ====
section
/-! DEFINITION. The chain walkers' commands (chapter 2): LEAVE_TO_TAKE, REVISIT_DEADLINE, REVISIT_COMPLETION, and what a
take does at its walker (R23). -/

namespace Sys2Proof.Machine

/-! ## Leave to take (R23) -/

/-- A walker's record read issued (R23). -/
def issueTake (w : WalkerId) (a : Nat) (s : State) : State :=
  issueRead a (recordLength w)
    (setWalker w { s.walker w with state := .reading, readAt := some s.now } s)

/-- A walker in NEXT with leave issues its record read (R23). -/
def takeLeave (w : WalkerId) (s : State) : State :=
  if (s.walker w).state == .next && hasLeave s w then
    match (s.walker w).successor with
    | none => s
    | some a => issueTake w a s
  else s

/-- Leave comes with the event that frees a context, removes a blank from a stock, or brings a walker with leave to NEXT
(R23). DESIGN CHOICE (log 30): several walkers that have leave at one event take it in the order of `allWalkers`, after the
event's other effects. -/
def giveLeave (s : State) : State :=
  if s.walking then allWalkers.foldl (fun t w => takeLeave w t) s else s

/-- What ends an event of the units: the end of STOPPING (R150, R159), the leave that its freed contexts and removed blanks
give (R23), and the entry to DOZING (R160). -/
def endEvent (s : State) : State := enterDoze (giveLeave (concludeStop s))

/-! ## Takes -/

/-- The walker after a take: its cursor the record, then NEXT at the link's address or HELD at the record; and the leave
that this event gives (R23). -/
def walkOn (w : WalkerId) (record : Nat) (link : Link) (s : State) : State :=
  match link with
  | .hold => giveLeave (setWalker w (heldAt (.record record) s) s)
  | .next a => giveLeave (setWalker w (nextAt (.record record) a) s)
  | .malformed => halt .chainMalformed s

/-- The completion of a walker's record read (R20, R23, R26): a failed read halts with CHAIN_READ, a malformed link
with CHAIN_MALFORMED, and the record is not taken; else the record is taken, handed to its unit, and the walker goes
on. Without a record read in flight nothing happens (log 14). -/
def takeRecord (w : WalkerId) (unit : Nat → List Byte → State → State) (r : ReadResult) (s : State) : State :=
  if s.walking && (s.walker w).state == .reading then
    match r, (s.walker w).successor with
    | .failed, _ => halt .chainRead s
    | .data _, none => s
    | .data image, some a =>
      match readLink (field image 0 8) with
      | .malformed => halt .chainMalformed s
      | link => inOrder [recordTaken, unit a image, walkOn w a link] s
  else s

/-! ## Revisits -/

/-- The value a revisit read, acted on (R25). -/
def actOnRevisit (w : WalkerId) (link : Link) (s : State) : State :=
  match link with
  | .hold =>
    if (s.walker w).wakePending then issueRevisit w s
    else setWalker w (heldAt (s.walker w).cursor s) s
  | .next a => giveLeave (setWalker w (nextAt (s.walker w).cursor a) s)
  | .malformed => halt .chainMalformed s

/-- LEAVE_TO_TAKE (R23). In the part leave comes with the event that gives it, and so it does in those events of the model
(log 1). -/
def execLeaveToTake (w : WalkerId) (s : State) : Host.Outcome State Fault Refusal :=
  .next <| if s.walking then takeLeave w s else s

/-- REVISIT_DEADLINE (R24). -/
def execRevisitDeadline (w : WalkerId) (s : State) : Host.Outcome State Fault Refusal :=
  .next <|
    if s.walking && (s.walker w).state == .held then
      match (s.walker w).deadline with
      | none => s
      | some t => issueRevisit w (reachTime t s)
    else s

/-- REVISIT_COMPLETION (R25, R26). -/
def execRevisitCompletion (w : WalkerId) (r : ReadResult) (s : State) : Host.Outcome State Fault Refusal :=
  if r.sized 8 then
    .next <|
      if s.walking && (s.walker w).state == .revisiting then
        match r with
        | .failed => halt .chainRead s
        | .data word => actOnRevisit w (readLink (leNat word)) s
      else s
  else .refused .illFormed

end Sys2Proof.Machine
end

