-- ==== Sys2Proof/Machine/Blanks.lean ====
section
/-! DEFINITION. Taking blanks (section 9.2): the tests of R141 and R142, the FENCED return (R143), and the command
BLANK_TAKE. -/

namespace Sys2Proof.Machine

/-- A range of addresses runs past the top of the address space (R142). -/
def pastTop (a : Nat) (len : Nat) : Bool := decide (a + len > Config.addressSpace)

/-- A blank's buffer range, measured with the largest window size (R142). -/
def Blank.bufferBytes (b : Blank) : Nat := b.capacity * Config.largestWindow

/-- A blank's check area (R142). -/
def Blank.checkBytes (b : Blank) : Nat := b.capacity * 4

/-- A blank is unusable (R142). -/
def blankUnusable (s : State) (b : Blank) : Bool :=
  b.buffer == 0 || b.buffer % 64 != 0 || b.checkArea == 0 || b.checkArea % 4 != 0 ||
    pastTop b.buffer b.bufferBytes || pastTop b.checkArea b.checkBytes ||
    !writePermitted s b.buffer b.bufferBytes || !writePermitted s b.checkArea b.checkBytes

/-- A usable blank appended at the back of its lane's stock, with the retries, re-evaluations and grant that follow
(R110, R112, R136, R142). -/
def stockBlank (p : LaneId) (b : Blank) (s : State) : State :=
  arbitrate (blankAvailable p
    (modifyStock p (fun stock => stock ++ [{ blank := b, reservation := none, claim := none }]) s))

/-- The delivery unit's work at a take: the fence test, then stocked or returned FENCED (R141 to R143). -/
def blankUnit (p : LaneId) (addr : Nat) (image : List Byte) (s : State) : State :=
  if writePermitted s addr 64 then
    let b := readBlank addr image
    if blankUnusable s b then returnRecord p addr (RecordFields.unopened .fenced) s
    else stockBlank p b s
  else halt .fenceBlank s

/-- BLANK_TAKE (R23, R141, R142). -/
def execBlankTake (p : LaneId) (r : ReadResult) (s : State) : Host.Outcome State Fault Refusal :=
  if r.sized 64 then .next (takeRecord (.blank p) (blankUnit p) r s) else .refused .illFormed

end Sys2Proof.Machine
end

