-- ==== Sys2Proof/Machine/CombineUnit.lean ====
section
/-! DEFINITION. The combine unit's commands (chapter 7): COMBINE_GRANT (R112) and COMBINE_COMPLETION (R117 to R122), with the
handovers to the delivery unit (R120, R144 to R146), and DRAIN_FINISH (R45). -/

namespace Sys2Proof.Machine

/-! ## The grant -/

/-- COMBINE_GRANT (R112), with the re-evaluations its claims call for (R110). In the part a grant is made at the event
that makes it possible, and so it is in those events of the model (log 1). -/
def execCombineGrant (s : State) : Host.Outcome State Fault Refusal :=
  .next <| if s.working then grantNext s else s

/-! ## What the reads returned -/

/-- A read result is what a read of `n` bytes can return. -/
def readFits (m : Member) (len : Nat) (r : SurvivorRead) : Bool :=
  m.readFailed || (r.data.sized len && (m.checks.isNone || r.check.sized 4))

/-- What a completion reports fits the reads the combine issued: one result a member, data of the valid length, four
check bytes where the range is checked (R115). -/
def readsFit (op : Combine) (reads : List SurvivorRead) : Bool :=
  op.members.length == reads.length &&
    (List.zip op.members reads).all fun p => readFits p.1 op.validLength p.2

/-- A member's window after its reads, as the verification finds it (R118, R119). -/
structure Survivor where
  frag : Nat
  checked : Bool
  /-- its read failed: READ_ERROR -/
  failed : Bool
  /-- the data, zero-padded to S -/
  window : List Byte
  /-- the check computed over the data read -/
  computed : List Byte
  /-- the check supplied -/
  supplied : List Byte
  deriving DecidableEq, Repr

/-- The bytes of a read result; none for a failed read. -/
def bytesOf : ReadResult → List Byte
  | .failed => []
  | .data b => b

/-- A read ended in failure. -/
def readFailed : ReadResult → Bool
  | .failed => true
  | .data _ => false

/-- A member with what its reads returned (R115, R118). -/
def survivorOf (S : Nat) (m : Member) (r : SurvivorRead) : Survivor :=
  let window := padWindow S (bytesOf r.data)
  { frag := m.frag, checked := m.checks.isSome
    failed := m.readFailed || readFailed r.data || (m.checks.isSome && readFailed r.check)
    window := window, computed := windowCheck window, supplied := bytesOf r.check }

/-- A survivor's window fails: READ_ERROR, or VERIFY_FAIL in a selected lane of a checked window (R15, R118). -/
def Survivor.fails (mask : BitVec 4) (v : Survivor) : Bool :=
  v.failed || (v.checked && !checkMatches mask v.computed v.supplied)

/-- The check used for prediction: the supplied lane where the mask selects it, else the computed one (R16). -/
def Survivor.predictionCheck (mask : BitVec 4) (v : Survivor) : List Byte :=
  (List.range 4).map fun t =>
    if mask.getLsbD t then v.supplied.getD t 0 else v.computed.getD t 0

/-- The predicted check of the output of a coefficient row, lane by lane (R16). -/
def predictedCheck (row : List Byte) (checks : List (List Byte)) : List Byte :=
  (List.range 4).map fun t => gfDot row (checks.map fun c => c.getD t 0)

/-- The output windows of the lost fragments, in lost-list order (R119). -/
def outputWindows (S : Nat) (rows : List (List Byte)) (survivors : List Survivor) : List (List Byte) :=
  rows.map fun row => combineWindows S row (survivors.map Survivor.window)

/-- Some output's check differs from its prediction (R16, R119). -/
def predictionDiffers (mask : BitVec 4) (S : Nat) (rows : List (List Byte)) (survivors : List Survivor) : Bool :=
  let checks := survivors.map fun v => v.predictionCheck mask
  rows.any fun row =>
    windowCheck (combineWindows S row (survivors.map Survivor.window)) != predictedCheck row checks

/-- The combine ends in MISMATCH: a prediction is made, and the unit's own arithmetic fails it (R119; log 20). -/
def endsInMismatch (mask : BitVec 4) (S : Nat) (rows : List (List Byte)) (survivors : List Survivor)
    (internalFault : Bool) : Bool :=
  survivors.all Survivor.checked && (internalFault || predictionDiffers mask S rows survivors)

/-! ## Handovers (R120, R144 to R146) -/

/-- A record opened for a fragment from the blank the combine claimed for it, when it has none (R144). -/
def openClaimed (c : CtxId) (i : Nat) (w : Nat) (s : State) : State :=
  match s.contexts[c] with
  | none => s
  | some x =>
    match x.lost[i]? with
    | none => s
    | some e =>
      match e.lane, e.openRecord with
      | some p, none =>
        match s.lanes[p].stock.find? fun k => k.claim == some e.frag with
        | none => s
        | some k =>
          modifyLost c i
            (fun e => { e with
              openRecord := some { blank := k.blank, first := w, count := 0 }
              recordsUsed := e.recordsUsed + 1, starved := false })
            (modifyStock p (fun stock => stock.erase k) s)
      | _, _ => s

/-- A fragment's open record. -/
def openRecordOf (s : State) (c : CtxId) (i : Nat) : Option OpenRecord :=
  (s.contexts[c]).bind fun x => (x.lost[i]?).bind LostEntry.openRecord

/-- A window written into a fragment's open record: data, then check, then the count (R145). -/
def fillRecord (c : CtxId) (i w S : Nat) (bytes check : List Byte) (s : State) : State :=
  match openRecordOf s c i with
  | none => s
  | some r =>
    inOrder
      [writeHost .fenceBlank (r.blank.buffer + (w - r.first) * S) bytes,
       writeHost .fenceBlank (r.blank.checkArea + 4 * (w - r.first)) check,
       modifyLost c i fun e => { e with
         openRecord := e.openRecord.map fun r => { r with count := r.count + 1 } }] s

/-- The record closed FINAL at the last window, else FILLED at its capacity (R146). -/
def closeIfDone (c : CtxId) (i : Nat) (last : Bool) (s : State) : State :=
  match openRecordOf s c i with
  | none => s
  | some r =>
    if last then closeFragment c i .final s
    else if r.count = r.blank.capacity then closeFragment c i .filled s
    else s

/-- One lost fragment's handover (R120). -/
def handOver (c : CtxId) (x : Context) (op : Combine) (i : Nat) (output : List Byte) (s : State) : State :=
  inOrder
    [openClaimed c i op.window,
     fillRecord c i op.window x.profile.windowBytes (output.take op.validLength) (windowCheck output),
     closeIfDone c i (op.window + 1 == x.windows)] s

/-! ## Completion -/

/-- The result no longer belongs to the context (R117). -/
def discards (op : Combine) (x : Context) : Bool :=
  x.state != .active || x.cancelPending || x.abortPending || x.changeCount != op.changeCount ||
    x.generation != op.generation

/-- The front advanced after the handovers: COMPLETE at W, else the straggler condition evaluated (R121). -/
def finishWindow (c : CtxId) (front : Nat) (s : State) : State :=
  let t := modifyContext c (fun x => x.advanceFront front) s
  match t.contexts[c] with
  | none => t
  | some x =>
    if front = x.windows then enterDraining c .complete .none t else evaluateStraggler c true t

/-- The effects of a completion on its context, in the order of R122: discard, survivor failures, mismatch, handovers,
front advance. -/
def actOnCombine (op : Combine) (reads : List SurvivorRead) (internalFault : Bool) (s : State) : State :=
  match s.contexts[op.ctx] with
  | none => releaseClaims s
  | some x =>
    if discards op x then evaluateStraggler op.ctx false (releaseClaims s)
    else
      let S := x.profile.windowBytes
      let survivors := List.zipWith (survivorOf S) op.members reads
      let failing := survivors.filter fun v => v.fails x.profile.mask
      if !failing.isEmpty then
        loseCandidates op.ctx (failing.map Survivor.frag) .corrupt (releaseClaims s)
      else if endsInMismatch x.profile.mask S op.rows survivors internalFault then
        enterDraining op.ctx .internalMismatch .none (releaseClaims s)
      else
        inOrder
          ((outputWindows S op.rows survivors).mapIdx (fun i output => handOver op.ctx x op i output) ++
            [finishWindow op.ctx (op.window + 1)]) s

/-- COMBINE_COMPLETION (R117 to R122, R172): its effects on the context, the drain it may finish (R45), the retries and
re-evaluations that released or freed blanks call for (R110, R124, R136), then the end of turn (R113), the grant that
follows at the same event (R112), and the end of the event. The contexts made ready by a release are listed before a
grantee whose quota is used (R124; log 8). -/
def execCombineCompletion (reads : List SurvivorRead) (internalFault : Bool) (s : State) :
    Host.Outcome State Fault Refusal :=
  match s.working, s.combine with
  | true, some op =>
    if readsFit op reads then
      .next <|
        inOrder
          [actOnCombine op reads internalFault, finishIfDue op.ctx, retryWaiting, reevaluate, endOfTurn op.ctx,
           arbitrate, endEvent] { s with combine := none }
    else .refused .illFormed
  | _, _ => .next s

/-- DRAIN_FINISH (R45), with the retries, re-evaluations and grant that follow, and the end of the event. -/
def execDrainFinish (c : CtxId) (s : State) : Host.Outcome State Fault Refusal :=
  .next <|
    if s.working && drainDue s c then inOrder [finishContext c, arbitrate, endEvent] s else s

end Sys2Proof.Machine
end

