-- ==== Sys2Proof/Machine/Notes.lean ====
section
/-! DEFINITION. The note unit and the pen (chapter 4): applying a note to a context (R62, R68, R69), the pen (R57 to R61),
and the commands NOTE_TAKE, ORPHAN_EXPIRY and SETTLE_DEADLINE. -/

namespace Sys2Proof.Machine

/-! ## The settle end (R82) -/

/-- The settle of a context ended: its first basis chosen, SOLVING, on the solve queue, its solve begun if the solver is
idle (R82, R93, R101, R102). -/
def endSettle (c : CtxId) (s : State) : State := enterQueue c (modifyContext c Context.endSettle s)

/-- The settle ended by landing: window 0 landed for k usable candidates (R82). -/
def settleIfLanded (c : CtxId) (s : State) : State :=
  match s.contexts[c] with
  | none => s
  | some x => if x.state = .settling ∧ x.settleLanded = true then endSettle c s else s

/-- The settle ended by its deadline (R82). -/
def settleAtDeadline (c : CtxId) (s : State) : State :=
  match s.contexts[c] with
  | none => s
  | some x =>
    match x.settleDeadline with
    | none => s
    | some t => if x.state = .settling ∧ t ≤ s.now then endSettle c s else s

/-! ## A note applied to a context (R55, R56) -/

/-- A DATA note applied to a live context (R62, R64, R98). -/
def applyData (c : CtxId) (addr : Nat) (n : Note) (s : State) : State :=
  match s.contexts[c] with
  | none => s
  | some x =>
    match dataCheck x n with
    | some o => writeNoteOutcome addr o s
    | none =>
      inOrder
        [modifyContext c fun x => x.acceptData n,
         writeNoteOutcome addr .accepted,
         evaluateStraggler c false] s

/-- A WITHDRAW note applied to a live context (R68). -/
def applyWithdraw (c : CtxId) (addr : Nat) (n : Note) (s : State) : State :=
  match s.contexts[c] with
  | none => s
  | some x =>
    match x.candidate n.frag with
    | none => writeNoteOutcome addr .droppedNotCandidate s
    | some k =>
      if !k.usable then writeNoteOutcome addr .droppedSourceDead s
      else
        inOrder
          [loseCandidates c [n.frag] .withdrawn,
           writeNoteOutcome addr .applied,
           evaluateStraggler c false] s

/-- A CANCEL note applied to a live context (R69). -/
def applyCancel (c : CtxId) (addr : Nat) (s : State) : State :=
  inOrder
    [modifyContext c fun x => { x with cancelPending := true },
     enterDraining c .cancelled .none,
     writeNoteOutcome addr .applied] s

/-- A note applied to the context that holds its tag (R55, R56, R60). -/
def applyNote (c : CtxId) (addr : Nat) (n : Note) (s : State) : State :=
  match s.contexts[c] with
  | none => s
  | some x =>
    if x.state = .draining then writeNoteOutcome addr .droppedLate s
    else match n.kind with
      | .data => applyData c addr n s
      | .withdraw => applyWithdraw c addr n s
      | .cancel => applyCancel c addr s
      | .bad => writeNoteOutcome addr .droppedFormat s

/-! ## The pen (R57 to R61) -/

/-- Room made in a full pen: its oldest entry removed and written DROPPED_ORPHAN (R58). -/
def makeRoom (s : State) : State :=
  if Config.penCapacity ≤ s.pen.length then
    match s.pen with
    | [] => s
    | e :: es => writeNoteOutcome e.addr .droppedOrphan { s with pen := es }
  else s

/-- A note enters the pen (R57). -/
def enterPen (addr : Nat) (n : Note) (s : State) : State :=
  inOrder
    [makeRoom,
     fun t => { t with pen := t.pen ++
       [{ addr := addr, note := n, deadline := t.now + t.control.timers.orphan }] },
     writeNoteOutcome addr .pending] s

/-- The pen's front entry removed and written DROPPED_STOP (R61). -/
def dropPenFront (s : State) : State :=
  match s.pen with
  | [] => s
  | e :: es => writeNoteOutcome e.addr .droppedStop { s with pen := es }

/-- The pen emptied at STOP, oldest first (R61). -/
def emptyPen (s : State) : State := inOrder (s.pen.map fun _ => dropPenFront) s

/-- The pen notes of a tag removed and applied to a context, oldest first (R43, R60; log 11). -/
def applyPenNotes (c : CtxId) (tag : Nat) (s : State) : State :=
  let mine := s.pen.filter fun e => e.note.tag == tag
  inOrder (mine.map fun e => applyNote c e.addr e.note)
    { s with pen := s.pen.filter fun e => e.note.tag != tag }

/-! ## Taking a note -/

/-- A note that passed the fence test, dispatched (R55). -/
def dispatchNote (addr : Nat) (n : Note) (s : State) : State :=
  if n.kind = .bad then writeNoteOutcome addr .droppedFormat s
  else match holderOf s n.tag with
    | none => enterPen addr n s
    | some c =>
      inOrder
        [applyNote c addr n,
         fun t => if n.kind = .data then settleIfLanded c t else t,
         finishIfDue c,
         arbitrate] s

/-- The note unit's work at a take: the fence test, then the dispatch (R54, R55). -/
def noteUnit (addr : Nat) (image : List Byte) (s : State) : State :=
  if checkingOn s.fenceList && !insideOne s.fenceList addr 64 then halt .fenceNote s
  else dispatchNote addr (readNote image) s

/-- NOTE_TAKE (R23, R54, R55). -/
def execNoteTake (r : ReadResult) (s : State) : Host.Outcome State Fault Refusal :=
  if r.sized 64 then .next (takeRecord .note noteUnit r s) else .refused .illFormed

/-- One entry removed from the pen and written DROPPED_ORPHAN (R59). -/
def dropOrphan (e : PenEntry) (s : State) : State :=
  writeNoteOutcome e.addr .droppedOrphan { s with pen := s.pen.erase e }

/-- Every entry whose orphan deadline is reached removed, one by one in pen order (R59). -/
def expireOrphans (s : State) : State :=
  inOrder ((s.pen.filter fun e => decide (e.deadline ≤ s.now)).map dropOrphan) s

/-- ORPHAN_EXPIRY (R59): the deadline of the entry at a position is reached, and with it every deadline that is not
later; then the entry to DOZING that waited for the pen (R160). -/
def execOrphanExpiry (position : Nat) (s : State) : Host.Outcome State Fault Refusal :=
  .next <|
    match s.walking, s.pen[position]? with
    | true, some e => enterDoze (expireOrphans (reachTime e.deadline s))
    | _, _ => s

/-- SETTLE_DEADLINE (R82). -/
def execSettleDeadline (c : CtxId) (s : State) : Host.Outcome State Fault Refusal :=
  .next <|
    match s.working, (s.contexts[c]).bind Context.settleDeadline with
    | true, some t => settleAtDeadline c (reachTime t s)
    | _, _ => s

end Sys2Proof.Machine
end

