-- ==== Sys2Proof/Machine/Orders.lean ====
section
/-! DEFINITION. The intake unit (chapter 3): validation (R37 to R39), refusal (R40), acceptance (R41 to R44), and the
command ORDER_TAKE. -/

namespace Sys2Proof.Machine

/-! ## Validation (R37, R38) -/

/-- Two entries are equal. -/
def hasRepeat : List Nat → Bool
  | [] => false
  | a :: as => as.contains a || hasRepeat as

/-- The lost list is ill-formed for a profile (R38). -/
def lostIllFormed (o : RepairOrder) (p : Profile) : Bool :=
  o.lostCount == 0 || decide (o.lostCount > p.m) ||
    o.lost.any (fun e => decide (p.n ≤ e.frag)) || hasRepeat (o.lost.map LostSlot.frag)

/-- The candidate list is ill-formed for a profile (R38). -/
def candidatesIllFormed (o : RepairOrder) (p : Profile) : Bool :=
  decide (o.candCount > p.n - 1) || o.cands.any (fun e => decide (p.n ≤ e.frag)) ||
    hasRepeat (o.cands.map CandidateSlot.frag) ||
    o.cands.any (fun e => (o.lost.map LostSlot.frag).contains e.frag)

/-- The valid profile entry an order names, as loaded (R37, check 1). -/
def namedProfile (s : State) (o : RepairOrder) : Option Profile :=
  match s.control.profiles.toList[o.profileIndex]? with
  | none => none
  | some p => if p.valid then some p else none

/-- The refusal detail of the first of the five checks that fails, or the profile of an order that passes them
(R37). -/
def validateOrder (s : State) (o : RepairOrder) : Except Detail Profile :=
  match namedProfile s o with
  | none => .error .profile
  | some p =>
    if o.length = 0 ∨ o.length > Config.maxLength then .error .length
    else if lostIllFormed o p then .error .lostList
    else if candidatesIllFormed o p then .error .candidateList
    else if (holderOf s o.tag).isSome then .error .dupTag
    else .ok p

/-! ## Acceptance (R41) -/

/-- A lost entry at intake (R41, R75). -/
def newLost (e : LostSlot) : LostEntry :=
  { frag := e.frag, spread := e.spread, key := e.key, lane := none, resolvedKey := none
    openRecord := none, recordsUsed := 0, preferred := none, groupFirst := none, groupLast := none
    starved := false }

/-- A roster entry at intake (R41, R76). -/
def newCandidate (e : CandidateSlot) : Candidate :=
  { frag := e.frag, rank := e.rank, state := .awaited, role := .spare, demotions := 0, tried := false
    ranges := [] }

/-- The context an accepted order fills (R41). Its class counts a margin below 0 as 0 (R44). -/
def newContext (s : State) (addr : Nat) (o : RepairOrder) (p : Profile) : Context :=
  let margin : Int := (o.cands.length : Int) - (p.k : Int)
  { tag := o.tag, orderAddr := addr, hint := o.hint, notify := o.notify, profile := p
    length := o.length, windows := windowCount o.length p.windowBytes
    state := .settling
    lost := o.lost.map newLost, roster := o.cands.map newCandidate
    basis := [], changeCount := 0, generation := 0, rows := [], front := 0, ordinal := 0
    margin := margin, urgency := urgencyOf o.hint margin, attempts := 0
    settleDeadline := some (s.now + s.control.timers.settle)
    stragglerDeadline := none, stragglerArmed := false
    cancelPending := false, abortPending := false, solveOwed := false
    notesAccepted := 0, demotions := 0, basesSolved := 0
    outcome := .new, detail := .none }

/-- The loss test of an accepted order: fewer than k candidates drain it UNRECOVERABLE LOSS (R44). -/
def lossAtTake (c : CtxId) (s : State) : State :=
  match s.contexts[c] with
  | none => s
  | some x =>
    if x.roster.length < x.profile.k then enterDraining c .unrecoverable .loss s else s

/-- An order accepted: the lowest FREE context filled, TAKEN written, the loss test, the pen notes of its tag, the
settle end that landings or a settle interval of 0 bring, and a drain with nothing to wait for (R41 to R45, R82). -/
def acceptOrder (addr : Nat) (o : RepairOrder) (p : Profile) (s : State) : State :=
  match lowestFree s with
  | none => s
  | some c =>
    inOrder
      [setContext c (some (newContext s addr o p)),
       writeField .fenceOrder (addr + resultStateOffset) 1 resultTaken,
       lossAtTake c,
       applyPenNotes c o.tag,
       settleIfLanded c,
       settleAtDeadline c,
       finishIfDue c] s

/-- An order refused: its result written and appended at once (R40). -/
def refuseOrder (addr : Nat) (o : RepairOrder) (d : Detail) (s : State) : State :=
  finishAppend addr (refusalResult d (min o.lostCount 6)) o.notify s

/-- The intake unit's work at a take: the fence test, the validation, refusal or acceptance (R35, R36). -/
def intakeUnit (addr : Nat) (image : List Byte) (s : State) : State :=
  if writePermitted s addr 512 then
    let o := readOrder image
    match validateOrder s o with
    | .error d => refuseOrder addr o d s
    | .ok p => acceptOrder addr o p s
  else halt .fenceOrder s

/-- ORDER_TAKE (R23, R35). -/
def execOrderTake (r : ReadResult) (s : State) : Host.Outcome State Fault Refusal :=
  if r.sized 512 then .next (takeRecord .order intakeUnit r s) else .refused .illFormed

end Sys2Proof.Machine
end

