-- ==== Sys2Proof/Machine/ControlUnit.lean ====
section
/-! DEFINITION. The control and event units' commands (chapter 10): the five COMMAND codes, the resets, the registers, the
anchor reads' completions, doze, the completion timeout and the holdoff. -/

namespace Sys2Proof.Machine

/-! ## Loading an anchor image (R156 to R158) -/

/-- The fence windows in force after an image is accepted: the held ones while locked, else the image's (R164). -/
def fencesAfter (s : State) (img : AnchorImage) : List FenceWindow :=
  if s.control.fenceLock then s.fenceList else img.fences.toList

/-- The first of the four checks that an image fails (R156). -/
def imageFault (s : State) (img : AnchorImage) : Option Cause :=
  let fences := fencesAfter s img
  if img.format ≠ Config.formatWord then some .anchorRead
  else if checkingOn fences && !covered fences s.control.anchor.toNat 4096 then some .anchorFence
  else if img.profiles.toList.any Profile.fails then some .tableProfile
  else if img.steering.decreases then some .tableOrder
  else none

/-- What START and RELOAD both load: profiles, steering table, timers and quota, lane flags, and the fence windows
unless locked; the loaded-table generation raised, the cause NONE (R157, R158). -/
def loadTables (img : AnchorImage) (s : State) : State :=
  { s with
    control := { s.control with
      profiles := img.profiles
      steering := img.steering
      timers := img.timers
      fences := if s.control.fenceLock then s.control.fences else img.fences
      generation := s.control.generation + 1
      cause := .none }
    lanes := tabulate fun p => { s.lanes[p] with notify := img.notify[p] } }

/-- The LFSR loaded from an image's seed (R130). -/
def loadSeed (img : AnchorImage) (s : State) : State :=
  { s with steering := { s.steering with lfsr := lfsrSeed img.steering.seed } }

/-! ## START -/

/-- A START rejected: STOPPED with the cause, START_REJECTED set; every loaded item kept. The interrupt enable is
latched from the image but under ANCHOR_READ (R156). -/
def rejectStart (cause : Cause) (latch : Option Bool) (s : State) : State :=
  raise .startRejected
    { s with
      control := { s.control with engine := .stopped, cause := cause, startReadAt := none }
      events := { s.events with interruptEnable := latch.getD s.events.interruptEnable } }

/-- Every append tail emptied (R29, R157). -/
def emptyTails (s : State) : State :=
  { s with finishedTail := none, lanes := s.lanes.map fun l => { l with filledTail := none } }

/-- A walker takes its chain start from the image (R22). -/
def startWalker (w : WalkerId) (word : Nat) (s : State) : State :=
  match readLink word with
  | .hold => setWalker w (heldAt .startField s) s
  | .next a => setWalker w (nextAt .startField a) s
  | .malformed => halt .chainMalformed s

/-- Every walker takes its chain start (R22). -/
def startWalkers (img : AnchorImage) (s : State) : State :=
  inOrder
    ([startWalker .order img.orderStart, startWalker .note img.noteStart] ++
      (List.finRange 32).map fun p => startWalker (.blank p) img.blankStarts[p]) s

/-- The fence lock after a successful START: taken from the image's lock flag when it was clear (R164). -/
def takeLock (img : AnchorImage) (s : State) : State :=
  { s with control := { s.control with fenceLock := s.control.fenceLock || img.lockFlag } }

/-- A successful START (R157), at which the walkers in NEXT that have leave read their records (R23). -/
def succeedStart (img : AnchorImage) (s : State) : State :=
  let t := emptyTails (takeLock img (loadSeed img (loadTables img s)))
  inOrder [startWalkers img, startIdle, giveLeave]
    { t with
      control := { t.control with engine := .running, startReadAt := none }
      events := { t.events with interruptEnable := img.interruptEnable } }

/-- The anchor read of STARTING completed with what it returned (R156). -/
def finishStart (r : ReadResult) (s : State) : State :=
  match r with
  | .failed => rejectStart .anchorRead none s
  | .data image =>
    let img := readAnchor image
    match imageFault s img with
    | some .anchorRead => rejectStart .anchorRead none s
    | some cause => rejectStart cause (some img.interruptEnable) s
    | none => succeedStart img s

/-- START (R154, R156). -/
def execStart (s : State) : Host.Outcome State Fault Refusal :=
  .next <|
    if s.control.engine = .stopped then
      if s.control.anchor = 0 then rejectStart .anchorRead none s
      else
        issueRead s.control.anchor.toNat 4096
          { s with control := { s.control with engine := .starting, startReadAt := some s.now } }
    else s

/-- START_READ_COMPLETION (R156, R157). -/
def execStartReadCompletion (r : ReadResult) (s : State) : Host.Outcome State Fault Refusal :=
  if r.sized 4096 then
    .next <| if s.control.engine = .starting then finishStart r s else s
  else .refused .illFormed

/-! ## RELOAD (R158) -/

/-- A RELOAD rejected: every loaded item kept, the cause written, RELOAD_REJECTED set (R158). -/
def rejectReload (cause : Cause) (s : State) : State :=
  raise .reloadRejected
    { s with control := { s.control with cause := cause, reloadAt := none } }

/-- The idle deadline after an accepted RELOAD: started when none runs and the loaded value is not 0; none, with the
mark clear, when the loaded value is 0 (R160; log 16). -/
def idleAfterReload (s : State) : State :=
  if s.control.timers.idle = 0 ∨ s.control.idleDeadline = none then startIdle s else s

/-- A RELOAD accepted at its completion (R158). -/
def acceptReload (img : AnchorImage) (s : State) : State :=
  let t := loadTables img s
  let u := if img.reseed then loadSeed img t else t
  raise .reloadDone (idleAfterReload { u with control := { u.control with reloadAt := none } })

/-- The reload's read completed with what it returned (R158), and the entry to DOZING that waited for it (R160). -/
def finishReload (r : ReadResult) (s : State) : State :=
  enterDoze <|
    match r with
    | .failed => rejectReload .anchorRead s
    | .data image =>
      let img := readAnchor image
      match imageFault s img with
      | some cause => rejectReload cause s
      | none => acceptReload img s

/-- RELOAD (R154, R158): one read, or merged into the reload in flight. -/
def execReload (s : State) : Host.Outcome State Fault Refusal :=
  .next <|
    if s.walking && s.control.reloadAt.isNone then
      issueRead s.control.anchor.toNat 4096
        { s with control := { s.control with reloadAt := some s.now } }
    else s

/-- RELOAD_READ_COMPLETION (R158). -/
def execReloadReadCompletion (r : ReadResult) (s : State) : Host.Outcome State Fault Refusal :=
  if r.sized 4096 then
    .next <| if s.walking && s.control.reloadAt.isSome then finishReload r s else s
  else .refused .illFormed

/-! ## STOP (R159) -/

/-- The control unit and the walkers at the entry to STOPPING (R26, R158 to R160). -/
def enterStopping (s : State) : State :=
  let t := idleWalkers s
  { t with
    control := { t.control with
      engine := .stopping, reloadAt := none, idleDeadline := none, idleElapsed := false }
    steering := { t.steering with retryDue := [] } }

/-- A context in use at STOP: abort-pending set, and DRAINING with ABORTED unless it was draining (R89). -/
def abortContext (s : State) (c : CtxId) : State :=
  enterDraining c .aborted .none (modifyContext c (fun x => { x with abortPending := true }) s)

/-- Every context aborted (R89). -/
def abortContexts (s : State) : State := (List.finRange 48).foldl abortContext s

/-- Every drain that has nothing to wait for finished, by ascending number (R45, R89; log 19). -/
def finishAllDue (s : State) : State := inOrder ((List.finRange 48).map finishIfDue) s

/-- STOP (R154, R159). -/
def execStop (s : State) : Host.Outcome State Fault Refusal :=
  .next <|
    if s.walking then
      inOrder [abortContexts, emptyPen, finishAllDue, concludeStop] (enterStopping s)
    else s

/-! ## WAKE, doze -/

/-- WAKE (R27, R154, R161). The walkers re-read in the order of `allWalkers`: the order walker, the note walker, then the
blank walkers of lanes 0 to 31. DESIGN CHOICE (log 30): the manual gives no order among walkers. -/
def execWake (s : State) : Host.Outcome State Fault Refusal :=
  .next <|
    if s.walking then
      allWalkers.foldl (fun t w => wakeWalker w t)
        (if s.control.engine = .dozing then leaveDoze s else s)
    else s

/-- IDLE_DEADLINE_EXPIRY, and the entry to DOZING where nothing else stands against it (R160). -/
def execIdleDeadlineExpiry (s : State) : Host.Outcome State Fault Refusal :=
  .next <|
    match s.walking, s.control.idleDeadline with
    | true, some t =>
      let u := reachTime t s
      enterDoze { u with control := { u.control with idleDeadline := none, idleElapsed := true } }
    | _, _ => s

/-- DOZE_ENTRY (R24, R160). In the part the entry happens at the first event at which its conditions hold, and so it does in
those events of the model (log 1). -/
def execDozeEntry (s : State) : Host.Outcome State Fault Refusal := .next (enterDoze s)

/-! ## Resets (R167) -/

/-- Every block at its reset values. The model's clock, log and queue, and the MSI-enabled input, which is no
register, stay (logs 3, 4, 6). -/
def resetBlocks (s : State) : State :=
  { State.reset with msiInput := s.msiInput, out := s.out, now := s.now, pending := s.pending }

/-- RESET: ANCHOR kept; a locked fence kept, its windows with it (R164, R167). -/
def execReset (s : State) : Host.Outcome State Fault Refusal :=
  let t := resetBlocks s
  .next
    { t with control := { t.control with
        anchor := s.control.anchor
        fences := if s.control.fenceLock then s.control.fences else t.control.fences
        fenceLock := s.control.fenceLock } }

/-- COLD_RESET (R167). -/
def execColdReset (s : State) : Host.Outcome State Fault Refusal := .next (resetBlocks s)

/-! ## Registers (R155, R165, R171) -/

/-- An address with bits 0 to 11 cleared (R155). -/
def anchorAligned (value : BitVec 64) : BitVec 64 := (value >>> 12) <<< 12

/-- ANCHOR_REGISTER_WRITE (R155). -/
def execAnchorRegisterWrite (value : BitVec 64) (s : State) : Host.Outcome State Fault Refusal :=
  .next <|
    if s.control.engine = .stopped then
      { s with control := { s.control with anchor := anchorAligned value } }
    else s

/-- EVENTS_READ: the eight bits returned and cleared (R165). -/
def execEventsRead (s : State) : Host.Outcome State Fault Refusal :=
  let t := emit [.reply (BitVec.zeroExtend 64 s.events.bits)] s
  .next { t with events := { t.events with bits := 0 } }

/-- IGNORED_REGISTER_WRITE: completed without effect (R154, R155, R171). A write that is not one of those is no such
command (log 15). -/
def execIgnoredRegisterWrite (offset width value : Nat) (s : State) : Host.Outcome State Fault Refusal :=
  if Instr.wellFormed (.ignoredRegisterWrite offset width value) then .next s else .refused .illFormed

/-! ## The completion timeout (R171) -/

/-- A survivor read of the combine in flight recorded as failed (R115). -/
def failSurvivor (i : Nat) (op : Combine) (s : State) : State :=
  { s with combine := some { op with
      members := op.members.modify i fun m => { m with readFailed := true } } }

/-- The time at which a read issued at `t` is ended (R171). -/
def timeoutAt (t : Nat) : Nat := t + Config.completionTimeout

/-- READ_COMPLETION_TIMEOUT (R26, R115, R156, R158, R171). -/
def execReadCompletionTimeout (read : ReadId) (s : State) : Host.Outcome State Fault Refusal :=
  .next <|
    match read with
    | .startAnchor =>
      match s.control.engine, s.control.startReadAt with
      | .starting, some t => finishStart .failed (reachTime (timeoutAt t) s)
      | _, _ => s
    | .reloadAnchor =>
      match s.walking, s.control.reloadAt with
      | true, some t => finishReload .failed (reachTime (timeoutAt t) s)
      | _, _ => s
    | .walker w =>
      match s.walking, (s.walker w).readAt with
      | true, some t => halt .chainRead (reachTime (timeoutAt t) s)
      | _, _ => s
    | .survivor i =>
      match s.working, s.combine with
      | true, some op => failSurvivor i op (reachTime (timeoutAt op.begunAt) s)
      | _, _ => s

/-! ## The holdoff (R166) -/

/-- The holdoff at its expiry (R166). -/
def expireHoldoff (s : State) : State :=
  if s.events.announcePending then
    if s.events.bits = 0 then
      { s with events := { s.events with announcePending := false, holdoff := none } }
    else startHoldoff (sendMessage { s with events := { s.events with announcePending := false } })
  else { s with events := { s.events with holdoff := none } }

/-- HOLDOFF_EXPIRY (R166). -/
def execHoldoffExpiry (s : State) : Host.Outcome State Fault Refusal :=
  .next <|
    match s.events.holdoff with
    | none => s
    | some t => expireHoldoff (reachTime t s)

end Sys2Proof.Machine
end

