-- ==== Sys2Proof/Machine/Solver.lean ====
section
/-! DEFINITION. The basis selector's and the solver's commands (chapter 6): STRAGGLER_EXPIRY (R99), SOLVE_BEGIN (R102) and
SOLVE_COMPLETION (R103 to R107). -/

namespace Sys2Proof.Machine

/-! ## Stragglers -/

/-- STRAGGLER_EXPIRY (R99). -/
def execStragglerExpiry (c : CtxId) (s : State) : Host.Outcome State Fault Refusal :=
  .next <|
    match s.working, s.contexts[c] with
    | true, some x =>
      match x.state, x.stragglerArmed, x.stragglerDeadline with
      | .active, true, some t =>
        resolveAgain c (modifyContext c Context.swapStragglers (reachTime t s))
      | _, _, _ => s
    | _, _ => s

/-! ## Beginning a solve -/

/-- SOLVE_BEGIN (R102): in the part it happens at the completion or at the entry to the queue that makes it possible, and
so it does in those events of the model; this command finds only what is still to begin (log 1). -/
def execSolveBegin (s : State) : Host.Outcome State Fault Refusal :=
  .next <| if s.working then beginNext s else s

/-! ## Completion -/

/-- The coefficient row of a lost fragment from the inverse (R104). -/
def coefficientRow (inverse : List (List Byte)) (l : LostRow) : List Byte :=
  match l.parity with
  | none => inverse.getD l.frag []
  | some row => rowTimesMatrix row inverse

/-- A solve's result: the coefficient rows of SUCCESS, or none for SINGULAR (R103, R104). -/
def solveResult (v : Solve) : Option (List (List Byte)) :=
  (invertRows v.rows).map fun inverse => v.lost.map (coefficientRow inverse)

/-- A SUCCESS that stands: rows installed, generation and bases solved raised, then STEERING or ACTIVE (R83,
R106). -/
def installRows (c : CtxId) (rows : List (List Byte)) (s : State) : State :=
  match s.contexts[c] with
  | none => s
  | some x =>
    let t := setContext c (some { x with
      rows := rows, generation := x.generation + 1, basesSolved := min 255 (x.basesSolved + 1) }) s
    if x.steered then enterActive c t else enterSteering c t

/-- A SINGULAR result that stands: the attempt count raised, then a replacement, or the drain UNRECOVERABLE SINGULAR
(R96, R107). -/
def actOnSingular (c : CtxId) (s : State) : State :=
  match s.contexts[c] with
  | none => s
  | some x =>
    let y := { x with attempts := x.attempts + 1 }
    let t := setContext c (some y) s
    if Config.attemptLimit ≤ y.attempts then enterDraining c .unrecoverable .singular t
    else match y.replacement with
      | none => enterDraining c .unrecoverable .singular t
      | some (out, into) => enqueueSolve c (setContext c (some (y.replace out into)) s)

/-- The solver's acts at a completion (R105). A context it queues again is among those the solver next chooses from
(R102). -/
def actOnSolve (v : Solve) (s : State) : State :=
  match s.contexts[v.ctx] with
  | none => s
  | some x =>
    if x.state ≠ .solving ∨ x.cancelPending = true ∨ x.abortPending = true then s
    else if x.changeCount ≠ v.changeCount then enqueueSolve v.ctx s
    else match solveResult v with
      | some rows => installRows v.ctx rows s
      | none => actOnSingular v.ctx s

/-- SOLVE_COMPLETION (R105 to R107): the solver's acts, the drain the completion may finish (R45), the next solve of the
queue (R102), the retries, re-evaluations and grant that follow (R110, R112, R136), and the end of the event. The next
solve begins before the retries. DESIGN CHOICE (log 26). -/
def execSolveCompletion (s : State) : Host.Outcome State Fault Refusal :=
  .next <|
    match s.working, s.solve with
    | true, some v =>
      inOrder [actOnSolve v, finishIfDue v.ctx, beginNext, arbitrate, endEvent] { s with solve := none }
    | _, _ => s

end Sys2Proof.Machine
end

