-- ==== Sys2Proof/Machine/Dispatch.lean ====
section
/-! DEFINITION. The dispatch: one arm per command, each one direct call of its meaning. -/

namespace Sys2Proof.Machine

def exec (i : Instr) (s : State) : Host.Outcome State Fault Refusal :=
  match i with
  | .start => Sys2Proof.Machine.execStart s
  | .stop => Sys2Proof.Machine.execStop s
  | .reload => Sys2Proof.Machine.execReload s
  | .wake => Sys2Proof.Machine.execWake s
  | .reset => Sys2Proof.Machine.execReset s
  | .coldReset => Sys2Proof.Machine.execColdReset s
  | .anchorRegisterWrite value => Sys2Proof.Machine.execAnchorRegisterWrite value s
  | .eventsRead => Sys2Proof.Machine.execEventsRead s
  | .ignoredRegisterWrite offset width value => Sys2Proof.Machine.execIgnoredRegisterWrite offset width value s
  | .startReadCompletion image => Sys2Proof.Machine.execStartReadCompletion image s
  | .reloadReadCompletion image => Sys2Proof.Machine.execReloadReadCompletion image s
  | .leaveToTake w => Sys2Proof.Machine.execLeaveToTake w s
  | .orderTake record => Sys2Proof.Machine.execOrderTake record s
  | .noteTake record => Sys2Proof.Machine.execNoteTake record s
  | .blankTake lane record => Sys2Proof.Machine.execBlankTake lane record s
  | .revisitDeadline w => Sys2Proof.Machine.execRevisitDeadline w s
  | .revisitCompletion w word => Sys2Proof.Machine.execRevisitCompletion w word s
  | .readCompletionTimeout read => Sys2Proof.Machine.execReadCompletionTimeout read s
  | .settleDeadline c => Sys2Proof.Machine.execSettleDeadline c s
  | .orphanExpiry position => Sys2Proof.Machine.execOrphanExpiry position s
  | .stragglerExpiry c => Sys2Proof.Machine.execStragglerExpiry c s
  | .solveBegin => Sys2Proof.Machine.execSolveBegin s
  | .solveCompletion => Sys2Proof.Machine.execSolveCompletion s
  | .steeringRetry lane => Sys2Proof.Machine.execSteeringRetry lane s
  | .combineGrant => Sys2Proof.Machine.execCombineGrant s
  | .combineCompletion reads internalFault => Sys2Proof.Machine.execCombineCompletion reads internalFault s
  | .drainFinish c => Sys2Proof.Machine.execDrainFinish c s
  | .idleDeadlineExpiry => Sys2Proof.Machine.execIdleDeadlineExpiry s
  | .dozeEntry => Sys2Proof.Machine.execDozeEntry s
  | .holdoffExpiry => Sys2Proof.Machine.execHoldoffExpiry s

end Sys2Proof.Machine
end

