-- ==== Sys2Proof/Machine/Due.lean ====
section
/-! DEFINITION. What the engine does by itself when no command waits (log 2): the internal beginning that the rules make at
the event before, or the deadline the clock has reached. -/

namespace Sys2Proof.Machine

/-- A time the clock has reached. -/
def reached (s : State) (t : Option Nat) : Bool := t.elim false fun t => decide (t ≤ s.now)

/-- The contexts of a table that meet a test, as a command on the first of them. -/
def firstContext (s : State) (test : Context → Bool) (f : CtxId → Instr) : Option Instr :=
  ((List.finRange 48).find? fun c => (s.contexts[c]).elim false test).map f

/-- The first walker that meets a test, as a command on it. -/
def firstWalker (s : State) (test : WalkerId → Walker → Bool) (f : WalkerId → Instr) : Option Instr :=
  (allWalkers.find? fun w => test w (s.walker w)).map f

/-- The beginnings that are still to be made (R23, R45, R102, R112, R136, R160; log 1). -/
def dueBeginnings (s : State) : List (Option Instr) :=
  [((List.finRange 48).find? fun c => drainDue s c).map .drainFinish,
   if s.solve.isNone && !s.solveQueue.isEmpty then some .solveBegin else none,
   s.steering.retryDue.head?.map .steeringRetry,
   if s.arbiter.grantee.isNone && (mostUrgentReady s).isSome then some .combineGrant else none,
   if s.walking then
     firstWalker s (fun w x => x.state == .next && x.successor.isSome && hasLeave s w) .leaveToTake
   else none,
   if dozeReady s then some .dozeEntry else none]

/-- The deadlines the clock has reached (R24, R59, R82, R99, R160, R171). -/
def dueDeadlines (s : State) : List (Option Instr) :=
  [firstContext s (fun x => x.state == .settling && reached s x.settleDeadline) .settleDeadline,
   firstContext s
     (fun x => x.state == .active && x.stragglerArmed && reached s x.stragglerDeadline) .stragglerExpiry,
   if s.walking then
     (s.pen.findIdx? fun e => decide (e.deadline ≤ s.now)).map .orphanExpiry
   else none,
   if s.walking then
     firstWalker s (fun _ x => x.state == .held && reached s x.deadline) .revisitDeadline
   else none,
   if s.walking then
     firstWalker s (fun _ x => reached s (x.readAt.map timeoutAt))
       (fun w => .readCompletionTimeout (.walker w))
   else none,
   if s.walking && reached s (s.control.reloadAt.map timeoutAt) then
     some (.readCompletionTimeout .reloadAnchor)
   else none,
   if s.walking && reached s s.control.idleDeadline then some .idleDeadlineExpiry else none]

/-- What is due in any engine state, or in STARTING: the holdoff (R166), the anchor read's timeout (R156, R171). -/
def dueAlways (s : State) : List (Option Instr) :=
  [if reached s s.events.holdoff then some .holdoffExpiry else none,
   if s.control.engine == .starting && reached s (s.control.startReadAt.map timeoutAt) then
     some (.readCompletionTimeout .startAnchor)
   else none]

/-- The first thing due, if there is one. -/
def due (s : State) : Option Instr :=
  ((if s.working then dueBeginnings s ++ dueDeadlines s else []) ++ dueAlways s).findSome? id

/-- One microsecond passes. -/
def tick (s : State) : State := { s with now := s.now + 1 }

end Sys2Proof.Machine
end

