-- ==== Sys2Proof/Safety.lean ====
section
/-! DEFINITION. The terms the claims use: the invariants of a sound run (an engine whose tables, walkers, lists and queues
are as the rules leave them), the writes that an append plans, and what a write inside the fences is. -/

namespace Sys2Proof.Machine

/-! ## Invariants -/

/-- ANCHOR holds a multiple of 4096 (R155). -/
def State.anchorOk (s : State) : Prop := s.control.anchor.toNat % 4096 = 0

/-- The loaded timers and the quota lie in their ranges (R157). -/
def Timers.inRange (t : Timers) : Prop :=
  t.settle ≤ 1000000 ∧ (100 ≤ t.straggler ∧ t.straggler ≤ 10000000) ∧ (1 ≤ t.revisit ∧ t.revisit ≤ 1000) ∧
    (1000 ≤ t.dozeRevisit ∧ t.dozeRevisit ≤ 1000000) ∧
    (t.idle = 0 ∨ (10000 ≤ t.idle ∧ t.idle ≤ 100000000)) ∧ t.holdoff ≤ 10000 ∧
    (1000 ≤ t.orphan ∧ t.orphan ≤ 10000000) ∧ (1 ≤ t.quota ∧ t.quota ≤ 128)

/-- The loaded separators are 16-bit values that do not decrease, and no draw leaves the key space (R126, R127). -/
def SteeringTable.sound (t : SteeringTable) : Prop :=
  (∀ i : Fin 31, t.seps[i] < 65536) ∧ (∀ i j : Fin 31, i ≤ j → t.seps[i] ≤ t.seps[j]) ∧
    t.spreadBase < 65536 ∧ t.spreadBase + t.spreadRange ≤ 65536

/-- What the control and steering units hold loaded is what the checks of START and RELOAD let in, and under a loaded
idle-to-doze value of 0 no idle deadline runs and its mark is clear (R7, R127, R130, R155, R157, R160, R163). -/
def State.loadedSound (s : State) : Prop :=
  s.anchorOk ∧ s.control.timers.inRange ∧ s.control.steering.sound ∧ s.steering.lfsr ≠ 0 ∧
    (∀ i : Fin 16, (s.control.profiles[i]).fails = false) ∧
    (∀ i : Fin 4, (s.control.fences[i]).base.toNat % 4096 = 0 ∧ (s.control.fences[i]).limit.toNat % 4096 = 0) ∧
    (s.control.timers.idle = 0 → s.control.idleDeadline = none ∧ s.control.idleElapsed = false)

/-- Outside RUNNING and DOZING every walker is IDLE with nothing held; no walker in NEXT has leave that it has not taken; a
DOZING engine holds no context and no pen note; and no RUNNING engine meets every condition of the entry to DOZING (R21,
R23, R26, R153, R160). -/
def State.walkersSound (s : State) : Prop :=
  (s.walking = false → ∀ w, s.walker w = Walker.rest) ∧
    (s.walking = true → ∀ w a, (s.walker w).state = .next → (s.walker w).successor = some a → hasLeave s w = false) ∧
    (s.control.engine = .dozing → contextsInUse s = 0 ∧ s.pen = []) ∧
    ¬(s.control.engine = .running ∧ s.control.idleElapsed = true ∧ s.control.timers.idle ≠ 0 ∧
      contextsInUse s = 0 ∧ s.pen = [] ∧ s.control.reloadAt = none)

/-- The pen holds at most 32 notes; a stock holds at most 2 blanks, and fewer while its walker reads one (R57, R140). -/
def State.storesSound (s : State) : Prop :=
  s.pen.length ≤ 32 ∧
    ∀ p : LaneId, s.lanes[p].stock.length ≤ 2 ∧
      ((s.blankWalkers[p]).state = .reading → s.lanes[p].stock.length < 2)

/-- No two contexts in use hold the same tag (R39). -/
def State.tagsDistinct (s : State) : Prop :=
  ∀ (c d : CtxId) (x y : Context), s.contexts[c] = some x → s.contexts[d] = some y → x.tag = y.tag → c = d

/-- The ready lists, one after another. -/
def State.readyContexts (s : State) : List CtxId := s.arbiter.ready.toList.flatten

/-- No context stands twice on the solve queue, the steering wait list or the ready lists; the grantee stands on no
ready list, a combine in flight is the grantee's, and no ready context waits while the unit has no grantee (R101, R111,
R112, R114, R136). -/
def State.listsSound (s : State) : Prop :=
  s.solveQueue.Nodup ∧ s.steering.waitList.Nodup ∧ s.readyContexts.Nodup ∧
    (∀ c, s.arbiter.grantee = some c → c ∉ s.readyContexts) ∧
    (∀ op, s.combine = some op → s.arbiter.grantee = some op.ctx) ∧
    (s.arbiter.grantee = none → s.readyContexts = [])

/-! ## Writes -/

/-- A write that an append plans: its place, and its bytes when `n` outputs have gone before it. Only a link word with
HOLD looks at `n` (log 5). -/
structure PlannedWrite where
  addr : Nat
  bytes : Nat → List Byte

/-- The outputs of planned writes, issued one after another when `n` outputs have gone before. -/
def issued : List PlannedWrite → Nat → List Output
  | [], _ => []
  | w :: ws, n =>
    let os := writeRequests w.addr (w.bytes n)
    os ++ issued ws (n + os.length)

/-- The state after planned writes. -/
def issue (ws : List PlannedWrite) (s : State) : State := { s with out := s.out ++ issued ws s.out.length }

/-- The fences permit every planned write (R163). -/
def permits (s : State) (ws : List PlannedWrite) : Prop :=
  ∀ w ∈ ws, ∀ n, writePermitted s w.addr (w.bytes n).length = true

/-- A field of a width (R169). -/
def fieldWrite (a width value : Nat) : PlannedWrite := { addr := a, bytes := fun _ => leBytes width value }

/-- A link word with HOLD (R29). -/
def holdWrite (a : Nat) : PlannedWrite := { addr := a, bytes := holdLinkBytes }

/-- A link word that names a record (R29). -/
def linkWrite (a target : Nat) : PlannedWrite := { addr := a, bytes := fun _ => leBytes 8 target }

/-- The write that places a record on a lane's filled chain (R147): the filled head, or the tail's filled link. -/
def filledLinkWrite (s : State) (p : LaneId) (record : Nat) : PlannedWrite :=
  match s.lanes[p].filledTail with
  | none => linkWrite (s.control.anchor.toNat + 0x108 + 32 * p.val) record
  | some tail => linkWrite (tail + 0x20) record

/-- The write that places an order on the finished chain (R49): the finished head, or the tail's finished link. -/
def finishedLinkWrite (s : State) (order : Nat) : PlannedWrite :=
  match s.finishedTail with
  | none => linkWrite (s.control.anchor.toNat + 0x050) order
  | some tail => linkWrite (tail + 0x080) order

/-- The writes of a delivery record's return, in order (R143, R146, R147, R150; file 11, section 11.5). -/
def recordWrites (s : State) (p : LaneId) (record : Nat) (f : RecordFields) : List PlannedWrite :=
  [fieldWrite (record + 0x28) 1 f.status.code, fieldWrite (record + 0x29) 1 p.val,
    fieldWrite (record + 0x2A) 2 f.tag, fieldWrite (record + 0x2C) 1 f.frag,
    fieldWrite (record + 0x2E) 2 f.key, fieldWrite (record + 0x30) 4 f.first,
    fieldWrite (record + 0x34) 2 f.count, holdWrite (record + 0x20), filledLinkWrite s p record]

/-- The writes of a finish append, in order (R49; file 11, section 11.3). -/
def finishWrites (s : State) (order : Nat) (r : OrderResult) : List PlannedWrite :=
  [fieldWrite (order + 0x089) 1 r.outcome.code, fieldWrite (order + 0x08A) 1 r.detail.code,
    fieldWrite (order + 0x08C) 4 r.front, fieldWrite (order + 0x090) 1 r.basesSolved,
    fieldWrite (order + 0x091) 1 r.demotions, fieldWrite (order + 0x092) 2 r.notesAccepted] ++
  r.slots.mapIdx (fun i bytes => { addr := order + 0x0A0 + 8 * i, bytes := fun _ => bytes }) ++
  [fieldWrite (order + 0x088) 1 2, holdWrite (order + 0x080), finishedLinkWrite s order]

/-- A host-memory write is one that lies inside the fences: checking is off, or each byte lies inside some enabled
window (R163). Any other output is no such write. -/
def Output.insideFences (fences : List FenceWindow) : Output → Prop
  | .write a bytes =>
    checkingOn fences = true → ∀ b, a ≤ b → b < a + bytes.length → ∃ w ∈ fences, w.covers b = true
  | .read _ _ => True
  | .msi => True
  | .reply _ => True

/-- An output is a host-memory write. -/
def Output.isWrite : Output → Bool
  | .write _ _ => true
  | .read _ _ => false
  | .msi => false
  | .reply _ => false

/-- A request to host memory lies in one 4 KiB page of the 64-bit address space (R171). -/
def Output.inOnePage : Output → Prop
  | .write a bytes => a % 4096 + bytes.length ≤ 4096 ∧ a + bytes.length ≤ 2 ^ 64
  | .read a len => a % 4096 + len ≤ 4096 ∧ a + len ≤ 2 ^ 64
  | .msi => True
  | .reply _ => True

/-- What a step issued: the outputs past those there before it. -/
def newOutputs (s t : State) : List Output := t.out.drop s.out.length

/-- The host-memory writes a step issued. -/
def newWrites (s t : State) : List Output := (newOutputs s t).filter Output.isWrite

/-- The write of a one-byte field, as it goes out (R169, R171). -/
def byteWrite (a value : Nat) : Output := .write (requestAddress a) [BitVec.ofNat 8 value]

/-- From `s` to `t` these blanks of a lane were written UNUSED and linked on its filled chain one after another, the
first behind `tail` (R147, R150). -/
def linkedUnused (s t : State) (p : LaneId) (tail : Option Nat) (blanks : List StockEntry) : Prop :=
  ∀ pre e post, blanks = pre ++ e :: post →
    ∃ (u : State) (n : Nat), u.control.anchor = s.control.anchor ∧
      u.lanes[p].filledTail = (match pre.getLast? with
        | none => tail
        | some d => some d.blank.addr) ∧
      issued (recordWrites u p e.blank.addr
        { status := .unused, tag := 0, frag := 0, key := 0, first := 0, count := 0 }) n <:+: newOutputs s t

/-- The fences are off, so no write is refused (R163). -/
def State.unfenced (s : State) : Prop := checkingOn s.fenceList = false

/-! ## Commands -/

/-- The command by which a walker's record read completes. -/
def takeCommand : WalkerId → ReadResult → Instr
  | .order, r => .orderTake r
  | .note, r => .noteTake r
  | .blank p, r => .blankTake p r

/-- A walker has a record read in flight for the record at `a`, in an engine that walks (R23). -/
def takes (s : State) (w : WalkerId) (a : Nat) : Prop :=
  s.walking = true ∧ (s.walker w).state = .reading ∧ (s.walker w).successor = some a

/-- The link word a record image begins with (R28; file 11). -/
def imageLink (image : List Byte) : Link := readLink (leNat (image.take 8))

end Sys2Proof.Machine
end

