-- ==== Sys2Proof/Certificates/Slice0/Obligations.lean ====
section
/-! DEFINITION. The statements for the provers. -/

open Sys2Proof Sys2Proof.Machine

/-! ## The machine -/

/-- A step takes the command at the front of the queue and runs it with the queue's rest (file 00, "Block overview";
the queue is the model's, log 2). -/
def Obligations.StepRunsFrontCommand : Prop :=
  ∀ (c : Instr) (rest : List Instr) (s : State),
    s.pending = c :: rest → step s = exec c { s with pending := rest }

/-- No command touches the queue or the MSI-enabled input, turns the clock back, or takes back an output: what the
endpoint issued stays issued, in its order. The order of what is issued is R169's. The rest is the model's: that commands
leave the queue (log 2), that the MSI-enabled input stays, through a cold reset too (log 6, PRESUMED), the clock (log 3) and
the record of outputs (log 4). -/
def Obligations.CommandsKeepQueueAndLog : Prop :=
  ∀ (c : Instr) (s t : State), exec c s = .next t →
    t.pending = s.pending ∧ t.msiInput = s.msiInput ∧ s.now ≤ t.now ∧ s.out <+: t.out

/-- Every well-formed command completes, in every state; a combine's completion does when its reads are those that the
combine in flight issued (R115). The model's choices are that a command whose condition does not hold changes nothing
(log 14) and which operands are well-formed (log 15). -/
def Obligations.WellFormedCommandsComplete : Prop :=
  ∀ (c : Instr) (s : State), c.wellFormed = true →
    (∀ reads b op, c = .combineCompletion reads b → s.combine = some op → readsFit op reads = true) →
    ∃ t, exec c s = .next t

/-! ## Resets and registers -/

/-- Either reset, in every state and whatever is in flight, leaves the whole machine at its reset values; the engine
reset keeps ANCHOR, the fence lock, and under the lock the fence windows. Nothing is issued, and an anchor read abandoned by
the reset completes without effect (R167). The model's choices are the base and limit of a disabled window and the values
of an invalid profile beside its flag (log 7), the queue that a reset keeps (log 2), the log of outputs and the clock that it
keeps (logs 3 and 4), the MSI-enabled input that it keeps, a cold reset too (log 6, PRESUMED), and the mark `retryDue`
(log 21). -/
def Obligations.ResetValues : Prop :=
  (∀ s : State,
    exec .coldReset s = .next { State.reset with
      msiInput := s.msiInput, out := s.out, now := s.now, pending := s.pending } ∧
    exec .reset s = .next { State.reset with
      control := { State.reset.control with
        anchor := s.control.anchor
        fences := if s.control.fenceLock = true then s.control.fences
          else Vector.replicate 4 { base := 0, limit := 0, enabled := false }
        fenceLock := s.control.fenceLock }
      msiInput := s.msiInput, out := s.out, now := s.now, pending := s.pending }) ∧
  State.reset.control.anchor = 0 ∧ State.reset.control.engine = .stopped ∧ State.reset.control.cause = .none ∧
  State.reset.control.generation = 0 ∧ State.reset.control.startReadAt = none ∧
  State.reset.control.reloadAt = none ∧ State.reset.control.idleDeadline = none ∧
  State.reset.control.idleElapsed = false ∧ State.reset.control.fenceLock = false ∧
  (∀ i : Fin 4, (State.reset.control.fences[i]).enabled = false) ∧
  (∀ i : Fin 16, (State.reset.control.profiles[i]).valid = false) ∧
  State.reset.control.steering =
    { seps := Vector.replicate 31 0, intervals := Vector.replicate 32 { kind := .normal, lane := 0 }
      spreadBase := 0, spreadRange := 0, seed := 0, groupEnd := Vector.replicate 32 false } ∧
  State.reset.control.timers =
    { settle := 0, straggler := 100, revisit := 1, dozeRevisit := 1000, idle := 0, holdoff := 0
      orphan := 1000, quota := 1 } ∧
  State.reset.events =
    { bits := 0, interruptEnable := false, holdoff := none, announcePending := false } ∧
  State.reset.steering = { lfsr := 1, waitList := [], retryDue := [] } ∧
  (∀ w, State.reset.walker w =
    { state := .idle, cursor := .empty, successor := none, deadline := none, wakePending := false
      readAt := none }) ∧
  (∀ c : CtxId, State.reset.contexts[c] = none) ∧ State.reset.pen = [] ∧ State.reset.solveQueue = [] ∧
  State.reset.solve = none ∧ State.reset.combine = none ∧
  State.reset.arbiter =
    { ready := Vector.replicate 4 [], grantee := none, turnCount := 0, turnQuota := 1 } ∧
  (∀ p : LaneId, State.reset.lanes[p] = { stock := [], filledTail := none, notify := false }) ∧
  State.reset.finishedTail = none ∧
  (∀ (s : State) (r : ReadResult), s.control.engine = .stopped → r.sized 4096 = true →
    exec (.startReadCompletion r) s = .next s ∧ exec (.reloadReadCompletion r) s = .next s)

/-- Register accesses. An ANCHOR write is taken in STOPPED, with bits 0 to 11 stored as 0, and ignored in every other
state. A 4-byte write of ANCHOR, a write of STATUS, EVENTS, the upper half of COMMAND or another offset, and an access
not served, are ignored and change nothing. Reads return ANCHOR, the five items of STATUS at their places, EVENTS, and
0 elsewhere, a 4-byte read the addressed half. A read that includes byte 0 of EVENTS is the command EVENTS_READ, which
answers what the read returns and clears the bits; no other read is a command (R153, R155, R165, R171). A pen within its
bound is what `WalkersAndStoresStaySound` keeps. That a read is a function beside the commands is the model's choice
(log 22). -/
def Obligations.RegisterAccesses : Prop :=
  (∀ (v : BitVec 64) (s : State),
     (s.control.engine = .stopped →
       ∃ a : BitVec 64, (∀ i, i < 12 → a.getLsbD i = false) ∧ (∀ i, 12 ≤ i → a.getLsbD i = v.getLsbD i) ∧
         exec (.anchorRegisterWrite v) s = .next { s with control := { s.control with anchor := a } }) ∧
     (s.control.engine ≠ .stopped → exec (.anchorRegisterWrite v) s = .next s)) ∧
  (∀ (offset width value : Nat) (s : State), value < 256 ^ width →
     (accessServed offset width = false ∨ (offset = 0x00 ∧ width = 4) ∨ (offset ≠ 0x00 ∧ offset ≠ 0x08) →
       registerWriteCommand offset width value = .ignoredRegisterWrite offset width value) ∧
     (registerWriteCommand offset width value = .ignoredRegisterWrite offset width value →
       exec (.ignoredRegisterWrite offset width value) s = .next s) ∧
     (registerWriteCommand 0x00 8 value = .anchorRegisterWrite (BitVec.ofNat 64 value))) ∧
  (∀ s : State, s.pen.length ≤ 32 →
     registerRead s 0x00 8 = s.control.anchor ∧
     registerRead s 0x18 8 = BitVec.zeroExtend 64 s.events.bits ∧
     (registerRead s 0x10 8).extractLsb' 0 8 = BitVec.ofNat 8 s.control.engine.code ∧
     (registerRead s 0x10 8).extractLsb' 8 8 = BitVec.ofNat 8 s.control.cause.code ∧
     (registerRead s 0x10 8).extractLsb' 16 8 = BitVec.ofNat 8 (contextsInUse s) ∧
     (registerRead s 0x10 8).extractLsb' 24 8 = BitVec.ofNat 8 s.pen.length ∧
     (registerRead s 0x10 8).extractLsb' 32 16 = s.control.generation ∧
     (registerRead s 0x10 8).extractLsb' 48 16 = 0 ∧
     (∀ offset width, accessServed offset width = false ∨ 0x20 ≤ offset → registerRead s offset width = 0) ∧
     (∀ r : Fin 4,
       registerRead s (8 * r.val) 4 = BitVec.zeroExtend 64 ((registerRead s (8 * r.val) 8).extractLsb' 0 32) ∧
       registerRead s (8 * r.val + 4) 4 =
         BitVec.zeroExtend 64 ((registerRead s (8 * r.val) 8).extractLsb' 32 32))) ∧
  (∀ offset width : Nat,
     (offset = 0x18 ∧ (width = 4 ∨ width = 8) → registerReadCommand offset width = some .eventsRead ∧
       ∀ s : State, exec .eventsRead s = .next { s with
         events := { s.events with bits := 0 }, out := s.out ++ [.reply (registerRead s offset width)] }) ∧
     (¬(offset = 0x18 ∧ (width = 4 ∨ width = 8)) → registerReadCommand offset width = none))

/-- The command table: START is accepted in STOPPED alone, STOP, RELOAD and WAKE in RUNNING and DOZING alone, RESET in
every state; a command not accepted there, a write of any other code, and a write of STATUS or EVENTS, changes nothing;
COMMAND reads 0 (R154). -/
def Obligations.CommandsByEngineState : Prop :=
  ∀ s : State,
    (s.control.engine ≠ .stopped → exec .start s = .next s) ∧
    (s.control.engine = .stopped → ∃ t, exec .start s = .next t ∧
      (t.control.engine = .starting ∨ t.control.cause = .anchorRead)) ∧
    (s.control.engine ≠ .running → s.control.engine ≠ .dozing →
      exec .stop s = .next s ∧ exec .reload s = .next s ∧ exec .wake s = .next s) ∧
    (s.control.engine = .running ∨ s.control.engine = .dozing →
      (∃ t, exec .stop s = .next t ∧
        (t.control.engine = .stopping ∨ t.control.engine = .stopped ∨ t.control.engine = .halted)) ∧
      (∃ t, exec .reload s = .next t ∧ t.control.reloadAt.isSome = true) ∧
      (∃ t, exec .wake s = .next t ∧ t.control.engine = .running)) ∧
    (∃ t, exec .reset s = .next t ∧ t.control.engine = .stopped) ∧
    (∀ width value, (width = 4 ∨ width = 8) → value < 256 ^ width →
      registerWriteCommand 0x08 width value =
        (if value % 256 = 1 then .start else if value % 256 = 2 then .stop
        else if value % 256 = 3 then .reload else if value % 256 = 4 then .wake
        else if value % 256 = 5 then .reset else .ignoredRegisterWrite 0x08 width value) ∧
      (value % 256 = 0 ∨ 5 < value % 256 → exec (registerWriteCommand 0x08 width value) s = .next s) ∧
      (∀ offset, 0x10 ≤ offset → exec (registerWriteCommand offset width value) s = .next s)) ∧
    registerRead s 0x08 8 = 0 ∧ registerRead s 0x08 4 = 0 ∧ registerRead s 0x0C 4 = 0

/-- The event unit. A read of EVENTS returns the eight bits and clears them. A bit already set changes nothing; a
bit's rise while the interrupt enable is set sends one message and starts the holdoff when that is idle, and else
leaves the announcement pending; with the enable clear it only rises. The holdoff's expiry sends a pending
announcement of a non-zero EVENTS and starts again, drops that of a zero EVENTS, and else becomes idle (R165, R166).
That an expiry moves the clock to its deadline is the model's choice (log 3), as it is in every statement about a
deadline. -/
def Obligations.EventUnitRules : Prop :=
  (∀ s : State, exec .eventsRead s = .next { s with
     events := { s.events with bits := 0 }
     out := s.out ++ [.reply (BitVec.zeroExtend 64 s.events.bits)] }) ∧
  (∀ (b : EventBit) (s : State),
     (s.events.bits.getLsbD b.index = true → raise b s = s) ∧
     (s.events.bits.getLsbD b.index = false → s.events.interruptEnable = false →
       raise b s = { s with events := { s.events with bits := s.events.bits ||| (1#8 <<< b.index) } }) ∧
     (s.events.bits.getLsbD b.index = false → s.events.interruptEnable = true → s.events.holdoff = none →
       raise b s = { s with
         events := { s.events with
           bits := s.events.bits ||| (1#8 <<< b.index)
           holdoff := if s.control.timers.holdoff = 0 then none else some (s.now + s.control.timers.holdoff) }
         out := s.out ++ if s.msiInput = true then [.msi] else [] }) ∧
     (s.events.bits.getLsbD b.index = false → s.events.interruptEnable = true → s.events.holdoff.isSome = true →
       raise b s = { s with events := { s.events with
         bits := s.events.bits ||| (1#8 <<< b.index), announcePending := true } })) ∧
  (∀ (s : State) (d : Nat), s.events.holdoff = some d →
     (s.events.announcePending = false → exec .holdoffExpiry s = .next { s with
       now := max s.now d, events := { s.events with holdoff := none } }) ∧
     (s.events.announcePending = true → s.events.bits = 0 → exec .holdoffExpiry s = .next { s with
       now := max s.now d, events := { s.events with holdoff := none, announcePending := false } }) ∧
     (s.events.announcePending = true → s.events.bits ≠ 0 → exec .holdoffExpiry s = .next { s with
       now := max s.now d
       events := { s.events with
         announcePending := false
         holdoff := if s.control.timers.holdoff = 0 then none
           else some (max s.now d + s.control.timers.holdoff) }
       out := s.out ++ if s.msiInput = true then [.msi] else [] }))

/-! ## START and RELOAD -/

/-- START in STOPPED: with ANCHOR 0 it is rejected at once with ANCHOR_READ; else the engine is STARTING and one read of
the 4096 bytes is issued. RELOAD in RUNNING or DOZING issues one read and marks the reload; while one is in flight it is
merged into it (R156, R158). ANCHOR's alignment is what `LoadedItemsStaySound` keeps. -/
def Obligations.StartAndReloadReadTheAnchorBlock : Prop :=
  (∀ s : State, s.control.engine = .stopped →
     (s.control.anchor = 0 → exec .start s = .next (raise .startRejected { s with
       control := { s.control with cause := .anchorRead, startReadAt := none } })) ∧
     (s.control.anchor ≠ 0 → s.control.anchor.toNat % 4096 = 0 → exec .start s = .next { s with
       control := { s.control with engine := .starting, startReadAt := some s.now }
       out := s.out ++ [.read s.control.anchor.toNat 4096] })) ∧
  (∀ s : State, s.control.engine = .running ∨ s.control.engine = .dozing → s.control.anchor.toNat % 4096 = 0 →
     (s.control.reloadAt = none → exec .reload s = .next { s with
       control := { s.control with reloadAt := some s.now }
       out := s.out ++ [.read s.control.anchor.toNat 4096] }) ∧
     (∀ t, s.control.reloadAt = some t → exec .reload s = .next s))

/-- The four checks of an anchor image, in their order: the first that fails gives the cause (R7, R127, R156). -/
def Obligations.ImageChecksInOrder : Prop :=
  ∀ (s : State) (img : AnchorImage),
    let fences := if s.control.fenceLock = true then s.control.fences.toList else img.fences.toList
    let outside := (∃ w ∈ fences, w.enabled = true) ∧
      ∃ b, s.control.anchor.toNat ≤ b ∧ b < s.control.anchor.toNat + 4096 ∧
        ∀ w ∈ fences, ¬(w.enabled = true ∧ w.base.toNat ≤ b ∧ b < w.limit.toNat)
    let badProfile := ∃ i : Fin 16, (img.profiles[i]).valid = true ∧
      ¬(2 ≤ (img.profiles[i]).k ∧ (img.profiles[i]).k ≤ 16 ∧ 1 ≤ (img.profiles[i]).m ∧
        (img.profiles[i]).m ≤ 6 ∧ (img.profiles[i]).k + (img.profiles[i]).m ≤ 20 ∧
        (img.profiles[i]).sizeCode ≤ 4)
    let badOrder := ∃ i : Fin 30, img.steering.seps[i.val + 1] < img.steering.seps[i.val]
    (img.format ≠ 0x62100001 → imageFault s img = some .anchorRead) ∧
    (img.format = 0x62100001 → outside → imageFault s img = some .anchorFence) ∧
    (img.format = 0x62100001 → ¬outside → badProfile → imageFault s img = some .tableProfile) ∧
    (img.format = 0x62100001 → ¬outside → ¬badProfile → badOrder → imageFault s img = some .tableOrder) ∧
    (img.format = 0x62100001 → ¬outside → ¬badProfile → ¬badOrder → imageFault s img = none)

/-- A START rejected at its read completion: STOPPED with the cause, START_REJECTED raised after the interrupt enable is
latched (not under ANCHOR_READ), and nothing loaded changed (R156). -/
def Obligations.StartRejectionLoadsNothing : Prop :=
  ∀ s : State, s.control.engine = .starting →
    exec (.startReadCompletion .failed) s = .next (raise .startRejected { s with
      control := { s.control with engine := .stopped, cause := .anchorRead, startReadAt := none } }) ∧
    ∀ (image : List Byte) (cause : Cause), image.length = 4096 →
      imageFault s (readAnchor image) = some cause →
      exec (.startReadCompletion (.data image)) s = .next (raise .startRejected { s with
        control := { s.control with engine := .stopped, cause := cause, startReadAt := none }
        events := { s.events with
          interruptEnable := if cause = .anchorRead then s.events.interruptEnable else (readAnchor image).interruptEnable } })

/-- What is read from an anchor image: each field at its place and width, least significant byte first; flags set by any
value but 0; timers and quota below their range at the lower bound and above it at the upper, an idle-to-doze of 0 kept;
fence bases and limits without bits 0 to 11; interval kinds by code, lanes modulo 32; the spread range clamped to the key
space (R4, R126, R127, R157, R163, R168, R170). A START that succeeds, with every chain start well-formed: the tables, timers, flags and fences loaded (the fences
unless locked, then the lock), the LFSR seeded, the generation raised, the interrupt enable latched, every append tail
emptied, the engine RUNNING with its idle deadline started and every walker at its chain start, from where those in NEXT
with leave read their first record; nothing else changes. With a malformed start the engine is HALTED with
CHAIN_MALFORMED (R22, R23, R130, R157, R164). The order of the walkers' reads is the model's choice (log 30). -/
def Obligations.StartSuccessLoadsTheImage : Prop :=
  (∀ image : List Byte, image.length = 4096 →
    let num : Nat → Nat → Nat := fun off width =>
      ((List.range width).map fun i => (image.getD (off + i) 0#8).toNat * 256 ^ i).sum
    let set : Nat → Bool := fun off => decide (num off 1 ≠ 0)
    let within : Nat → Nat → Nat → Nat := fun lo hi v => if v < lo then lo else if hi < v then hi else v
    let img := readAnchor image
    img.format = num 0x000 4 ∧ img.interruptEnable = set 0x004 ∧ img.lockFlag = set 0x005 ∧ img.reseed = set 0x006 ∧
    img.timers =
      { settle := within 0 1000000 (num 0x008 4)
        straggler := within 100 10000000 (num 0x00C 4)
        revisit := within 1 1000 (num 0x010 4)
        dozeRevisit := within 1000 1000000 (num 0x014 4)
        idle := if num 0x018 4 = 0 then 0 else within 10000 100000000 (num 0x018 4)
        holdoff := within 0 10000 (num 0x01C 4)
        orphan := within 1000 10000000 (num 0x020 4)
        quota := within 1 128 (num 0x024 4) } ∧
    img.orderStart = num 0x040 8 ∧ img.noteStart = num 0x048 8 ∧
    (∀ i : Fin 4, img.fences[i] =
      { base := BitVec.ofNat 64 (num (0x080 + 32 * i.val) 8 / 4096 * 4096)
        limit := BitVec.ofNat 64 (num (0x088 + 32 * i.val) 8 / 4096 * 4096)
        enabled := set (0x090 + 32 * i.val) }) ∧
    (∀ p : LaneId, img.blankStarts[p] = num (0x100 + 32 * p.val) 8 ∧ img.notify[p] = set (0x110 + 32 * p.val) ∧
      img.steering.groupEnd[p] = set (0x111 + 32 * p.val)) ∧
    (∀ i : Fin 31, img.steering.seps[i] = num (0x500 + 2 * i.val) 2) ∧
    (∀ i : Fin 32,
      (img.steering.intervals[i]).kind =
        (if num (0x540 + 2 * i.val) 1 = 0 then .normal
         else if num (0x540 + 2 * i.val) 1 = 1 then .spread else .forbidden) ∧
      ((img.steering.intervals[i]).lane).val = num (0x541 + 2 * i.val) 1 % 32) ∧
    img.steering.spreadBase = num 0x580 2 ∧
    img.steering.spreadRange =
      (if 65536 < num 0x580 2 + num 0x584 4 then 65536 - num 0x580 2 else num 0x584 4) ∧
    img.steering.seed = num 0x588 2 ∧
    ∀ j : Fin 16,
      let entry := 0x800 + 128 * j.val
      img.profiles[j] =
        { valid := set entry, k := num (entry + 1) 1, m := num (entry + 2) 1, sizeCode := num (entry + 3) 1
          mask := BitVec.ofNat 4 (num (entry + 4) 1)
          coeffs := (image.drop (entry + 0x10)).take (min 112 (num (entry + 1) 1 * num (entry + 2) 1)) }) ∧
  ∀ (s : State) (image : List Byte), s.control.engine = .starting → image.length = 4096 →
    let img := readAnchor image
    let word : WalkerId → Nat := fun w => match w with
      | .order => img.orderStart
      | .note => img.noteStart
      | .blank p => img.blankStarts[p]
    let leave : WalkerId → Bool := fun w => match w with
      | .order => (List.finRange 48).any fun c => (s.contexts[c]).isNone
      | .note => true
      | .blank p => decide (s.lanes[p].stock.length < 2)
    let len : WalkerId → Nat := fun w => match w with
      | .order => 512
      | .note => 64
      | .blank _ => 64
    imageFault s img = none →
    ((∀ w, readLink (word w) ≠ .malformed) → ∃ t, exec (.startReadCompletion (.data image)) s = .next t ∧
      t.control = { s.control with
        engine := .running, cause := .none, startReadAt := none
        generation := s.control.generation + 1
        profiles := img.profiles, steering := img.steering, timers := img.timers
        fences := if s.control.fenceLock = true then s.control.fences else img.fences
        fenceLock := s.control.fenceLock || img.lockFlag
        idleDeadline := if img.timers.idle = 0 then none else some (s.now + img.timers.idle)
        idleElapsed := false } ∧
      t.events = { s.events with interruptEnable := img.interruptEnable } ∧
      t.steering = { s.steering with
        lfsr := if BitVec.ofNat 16 img.steering.seed = 0 then 1 else BitVec.ofNat 16 img.steering.seed } ∧
      t.finishedTail = none ∧
      (∀ p : LaneId, t.lanes[p] =
        { stock := s.lanes[p].stock, filledTail := none, notify := img.notify[p] }) ∧
      (∀ w, t.walker w =
        if word w % 2 = 1 then
          { state := .held, cursor := .startField, successor := none
            deadline := some (s.now + img.timers.revisit), wakePending := false, readAt := none }
        else
          { state := if leave w = true then .reading else .next
            cursor := .startField, successor := some (word w), deadline := none
            wakePending := false, readAt := if leave w = true then some s.now else none }) ∧
      t.out = s.out ++ allWalkers.flatMap (fun w =>
        if word w % 2 = 0 ∧ leave w = true then readRequests (word w) (len w) else []) ∧
      t = { s with
        control := t.control, events := t.events, steering := t.steering, finishedTail := t.finishedTail
        lanes := t.lanes, orderWalker := t.orderWalker, noteWalker := t.noteWalker
        blankWalkers := t.blankWalkers, out := t.out }) ∧
    ((∃ w, readLink (word w) = .malformed) → ∃ t, exec (.startReadCompletion (.data image)) s = .next t ∧
      t.control.engine = .halted ∧ t.control.cause = .chainMalformed)

/-- A reload's completion: rejected, it keeps every loaded item and raises RELOAD_REJECTED with the cause; accepted,
it replaces the tables, lane flags, timers, unlocked fences and, when the reseed flag says so, the LFSR, starts the
idle deadline where none runs, and raises RELOAD_DONE; under a loaded idle-to-doze value of 0 no deadline runs and the mark
is clear. Then the engine enters DOZING where the reload in flight alone stood against it, as `DozeRules` says of the entry
(R130, R158, R160, R164). That a running deadline is then stopped is read from R160's 'no deadline runs' (log 16). -/
def Obligations.ReloadCompletionReplacesTables : Prop :=
  ∀ (s : State) (at₀ : Nat), s.control.engine = .running ∨ s.control.engine = .dozing →
    s.control.reloadAt = some at₀ →
    exec (.reloadReadCompletion .failed) s = .next (enterDoze (raise .reloadRejected { s with
      control := { s.control with cause := .anchorRead, reloadAt := none } })) ∧
    ∀ image : List Byte, image.length = 4096 →
      let img := readAnchor image
      (∀ cause, imageFault s img = some cause →
        exec (.reloadReadCompletion (.data image)) s = .next (enterDoze (raise .reloadRejected { s with
          control := { s.control with cause := cause, reloadAt := none } }))) ∧
      (imageFault s img = none →
        exec (.reloadReadCompletion (.data image)) s = .next (enterDoze (raise .reloadDone { s with
          control := { s.control with
            profiles := img.profiles, steering := img.steering, timers := img.timers
            fences := if s.control.fenceLock = true then s.control.fences else img.fences
            generation := s.control.generation + 1, cause := .none, reloadAt := none
            idleDeadline :=
              if img.timers.idle = 0 then none
              else if s.control.idleDeadline = none then some (s.now + img.timers.idle)
              else s.control.idleDeadline
            idleElapsed :=
              if img.timers.idle = 0 ∨ s.control.idleDeadline = none then false else s.control.idleElapsed }
          lanes := tabulate fun p => { s.lanes[p] with notify := img.notify[p] }
          steering := { s.steering with
            lfsr := if img.reseed = true then
              (if BitVec.ofNat 16 img.steering.seed = 0 then 1 else BitVec.ofNat 16 img.steering.seed)
            else s.steering.lfsr } })))

/-! ## STOP, WAKE, doze, timeouts, halts -/

/-- STOP in RUNNING or DOZING, and how STOPPING ends. Every walker is IDLE with nothing held, the reload cancelled, the idle
deadline stopped. With the fences off no write is refused, and: every pen note is written DROPPED_STOP, oldest first, and
the pen is empty; every context in use has abort-pending set and drains, ABORTED unless it was draining, and one without
a solve or combine in flight is finished with that outcome and freed; every blank that then bears no mark leaves its stock,
is written UNUSED and linked on its lane's chain in take order; and the engine is STOPPED, with ENGINE_STOPPED, exactly when
no context is left in use. Where a write is refused the engine is HALTED. At the end of every later event in STOPPING the
blanks freed of their marks are linked UNUSED in the same way, and the engine is STOPPED with ENGINE_STOPPED when no context
is left (R26, R61, R72, R89, R147, R150, R158, R159). The order of the parts of a STOP, and of the UNUSED appends after the
other appends of their event (log 19), and the order of a record's fields among themselves (log 13) are the model's
choice. -/
def Obligations.StopDrainsTheEngine : Prop :=
  (∀ s : State, s.control.engine = .running ∨ s.control.engine = .dozing →
    ∃ t, exec .stop s = .next t ∧ (∀ w, t.walker w = Walker.rest) ∧
      t.control.reloadAt = none ∧ t.control.idleDeadline = none ∧ t.control.idleElapsed = false ∧
      (s.unfenced → t.control.engine ≠ .halted) ∧
      (t.control.engine ≠ .halted →
        t.pen = [] ∧
        (∀ (c : CtxId) (x : Context), t.contexts[c] = some x →
          x.state = .draining ∧ x.abortPending = true ∧ inFlight s c = true) ∧
        (∀ (p : LaneId), ∀ e ∈ t.lanes[p].stock, e.reservation.isSome = true ∨ e.claim.isSome = true) ∧
        t.solve = s.solve ∧ t.combine = s.combine ∧
        t.control.engine = (if contextsInUse t = 0 then .stopped else .stopping))) ∧
  (∀ s : State, s.control.engine = .running ∨ s.control.engine = .dozing → s.unfenced →
    let freed : CtxId → Bool := fun c => (s.contexts[c]).isSome && !inFlight s c
    let stocked : LaneId → List StockEntry := fun p => s.lanes[p].stock.map fun k =>
      { k with reservation := if (k.reservation.any fun q => freed q.ctx) = true then none else k.reservation }
    let marked : StockEntry → Bool := fun k => k.reservation.isSome || k.claim.isSome
    ∃ t, exec .stop s = .next t ∧
      (newWrites s t).take s.pen.length = s.pen.map (fun e => byteWrite (e.addr + 0x28) 0x18) ∧
      (s.pen ≠ [] → t.events.bits.getLsbD 3 = true) ∧
      (∀ c : CtxId, s.contexts[c] = none → t.contexts[c] = none) ∧
      (∀ (c : CtxId) (x : Context), s.contexts[c] = some x →
        (inFlight s c = true → x.state = .draining → t.contexts[c] = some { x with abortPending := true }) ∧
        (inFlight s c = true → x.state ≠ .draining → t.contexts[c] = some { x with
          state := .draining, outcome := .aborted, detail := .none, abortPending := true
          settleDeadline := none, stragglerDeadline := none, stragglerArmed := false }) ∧
        (inFlight s c = false → t.contexts[c] = none ∧
          byteWrite (x.orderAddr + 0x089) (if x.state = .draining then x.outcome.code else 5) ∈ newWrites s t ∧
          byteWrite (x.orderAddr + 0x088) 2 ∈ newWrites s t)) ∧
      (∀ p : LaneId, t.lanes[p].stock = (stocked p).filter marked ∧
        ∃ tail, linkedUnused s t p tail ((stocked p).filter fun k => !marked k) ∧
          ((∀ (c : CtxId) (x : Context), s.contexts[c] = some x → freed c = true →
            ∀ e ∈ x.lost, e.lane = some p → e.openRecord = none) → tail = s.lanes[p].filledTail)) ∧
      (contextsInUse t = 0 → t.events.bits.getLsbD 7 = true)) ∧
  (∀ s : State,
    (s.control.engine ≠ .stopping → concludeStop s = s) ∧
    (s.control.engine = .stopping → s.unfenced →
      let t := concludeStop s
      t.control.engine = (if contextsInUse s = 0 then .stopped else .stopping) ∧
      (contextsInUse s = 0 → t.events.bits.getLsbD 7 = true) ∧
      (∀ p : LaneId,
        t.lanes[p].stock = s.lanes[p].stock.filter (fun k => k.reservation.isSome || k.claim.isSome) ∧
        linkedUnused s t p s.lanes[p].filledTail
          (s.lanes[p].stock.filter fun k => k.reservation.isNone && k.claim.isNone)) ∧
      t.contexts = s.contexts ∧ t.pen = s.pen ∧ t.solve = s.solve ∧ t.combine = s.combine ∧
      t.arbiter = s.arbiter ∧ t.finishedTail = s.finishedTail))

/-- WAKE in RUNNING or DOZING: the engine is RUNNING (from DOZING with a fresh idle deadline); every walker in HELD with
a link to read enters REVISITING and reads it, every walker in REVISITING has wake-pending set, the others stay; no
context, pen, lane or event changes (R27, R160, R161). The order in which several walkers re-read, the order walker, the
note walker, then lanes 0 to 31, is the model's choice (log 30). -/
def Obligations.WakeSendsHeldWalkersToRevisit : Prop :=
  ∀ s : State, s.control.engine = .running ∨ s.control.engine = .dozing →
    ∃ t, exec .wake s = .next t ∧
      t.control = { s.control with
        engine := .running
        idleDeadline :=
          if s.control.engine = .dozing then
            (if s.control.timers.idle = 0 then none else some (s.now + s.control.timers.idle))
          else s.control.idleDeadline
        idleElapsed := if s.control.engine = .dozing then false else s.control.idleElapsed } ∧
      (∀ w,
        ((s.walker w).state = .held → (heldLinkAddr s w).isSome = true →
          t.walker w = { s.walker w with
            state := .revisiting, deadline := none, wakePending := false, readAt := some s.now }) ∧
        ((s.walker w).state = .revisiting → t.walker w = { s.walker w with wakePending := true }) ∧
        ((s.walker w).state = .next ∨ (s.walker w).state = .reading ∨ (s.walker w).state = .idle →
          t.walker w = s.walker w)) ∧
      t.out = s.out ++ allWalkers.flatMap (fun w =>
        if (s.walker w).state = .held then
          (match heldLinkAddr s w with
          | none => []
          | some a => readRequests a 8)
        else []) ∧
      t = { s with
        control := t.control, orderWalker := t.orderWalker, noteWalker := t.noteWalker
        blankWalkers := t.blankWalkers, out := t.out }

/-- The idle deadline's expiry sets the mark, and the engine enters DOZING at once where the other conditions hold; a record
taken restarts the deadline, or ends DOZING, where held walkers restart at the revisit interval. Where every condition of
the entry to DOZING holds, the engine is DOZING and held walkers restart at the doze revisit interval, and nothing else
changes; where one fails, nothing does. The same entry is the last thing at the end of an event that may have freed the
last context, after the end of STOPPING and the leave that the event gives (R24, R160). That no RUNNING engine is left with
every condition met is part of `WalkersAndStoresStaySound`; the order of what ends an event is the model's choice (log
26). -/
def Obligations.DozeRules : Prop :=
  (∀ (s : State),
     (∀ d, (s.control.engine = .running ∨ s.control.engine = .dozing) → s.control.idleDeadline = some d →
       exec .idleDeadlineExpiry s = exec .dozeEntry { s with
         now := max s.now d, control := { s.control with idleDeadline := none, idleElapsed := true } }) ∧
     (∀ d, s.control.engine = .running → s.control.idleDeadline = some d → s.control.timers.idle ≠ 0 →
       contextsInUse s = 0 → s.pen = [] → s.control.reloadAt = none →
       ∃ t, exec .idleDeadlineExpiry s = .next t ∧
         t.control = { s.control with engine := .dozing, idleDeadline := none, idleElapsed := true } ∧
         ∀ w, t.walker w =
           if (s.walker w).state = .held then
             { s.walker w with deadline := some (max s.now d + s.control.timers.dozeRevisit) }
           else s.walker w) ∧
     (s.control.engine ≠ .dozing → recordTaken s = { s with control := { s.control with
       idleElapsed := false
       idleDeadline := if s.control.timers.idle = 0 then none else some (s.now + s.control.timers.idle) } }) ∧
     (s.control.engine = .dozing →
       (recordTaken s).control = { s.control with
         engine := .running, idleElapsed := false
         idleDeadline := if s.control.timers.idle = 0 then none else some (s.now + s.control.timers.idle) } ∧
       ∀ w, (recordTaken s).walker w =
         if (s.walker w).state = .held then
           { s.walker w with deadline := some (s.now + s.control.timers.revisit) }
         else s.walker w)) ∧
  (∀ s : State,
     (s.control.engine = .running → s.control.idleElapsed = true → s.control.timers.idle ≠ 0 →
       contextsInUse s = 0 → s.pen = [] → s.control.reloadAt = none →
       ∃ t, exec .dozeEntry s = .next t ∧ t.control = { s.control with engine := .dozing } ∧
         (∀ w, t.walker w =
           if (s.walker w).state = .held then
             { s.walker w with deadline := some (s.now + s.control.timers.dozeRevisit) }
           else s.walker w) ∧
         t = { s with
           control := t.control, orderWalker := t.orderWalker, noteWalker := t.noteWalker
           blankWalkers := t.blankWalkers }) ∧
     (s.control.engine ≠ .running ∨ s.control.idleElapsed = false ∨ s.control.timers.idle = 0 ∨
       contextsInUse s ≠ 0 ∨ s.pen ≠ [] ∨ s.control.reloadAt ≠ none → exec .dozeEntry s = .next s) ∧
     exec .dozeEntry s = .next (enterDoze s) ∧
     endEvent s = enterDoze (giveLeave (concludeStop s)))

/-- A read without completion ends 50,000 µs after its issue: an anchor read rejects the START or the RELOAD with
ANCHOR_READ, and after the RELOAD the engine enters DOZING where that alone stood against it; a walker's read halts with
CHAIN_READ, a survivor read is recorded as failed (R26, R115, R160, R171). That the reads issued again before a timeout are
not told apart is the model's choice (log 17). -/
def Obligations.CompletionTimeoutEndsReads : Prop :=
  ∀ (s : State) (t : Nat),
    (s.control.engine = .starting → s.control.startReadAt = some t →
      exec (.readCompletionTimeout .startAnchor) s = .next (raise .startRejected { s with
        now := max s.now (t + 50000)
        control := { s.control with engine := .stopped, cause := .anchorRead, startReadAt := none } })) ∧
    (s.control.engine = .running ∨ s.control.engine = .dozing → s.control.reloadAt = some t →
      exec (.readCompletionTimeout .reloadAnchor) s = .next (enterDoze (raise .reloadRejected { s with
        now := max s.now (t + 50000)
        control := { s.control with cause := .anchorRead, reloadAt := none } }))) ∧
    (∀ w, s.control.engine = .running ∨ s.control.engine = .dozing → (s.walker w).readAt = some t →
      exec (.readCompletionTimeout (.walker w)) s = .next (halt .chainRead { s with now := max s.now (t + 50000) })) ∧
    (∀ (i : Nat) (op : Combine) (m : Member),
      s.control.engine = .running ∨ s.control.engine = .dozing ∨ s.control.engine = .stopping →
      s.combine = some op → op.members[i]? = some m →
      exec (.readCompletionTimeout (.survivor i)) s = .next { s with
        now := max s.now (op.begunAt + 50000)
        combine := some { op with members := op.members.set i { m with readFailed := true } } })

/-- A halt cause in an engine not yet HALTED: HALTED with that cause, every walker IDLE with nothing held, the idle
deadline and the reload dropped, ENGINE_STOPPED raised, and all else as it stood; a second cause has no effect. A write
outside the fences is not made and raises the cause of its place: ANCHOR_WRITE for a head field, FENCE_ORDER for a write
into an order, FENCE_BLANK into a delivery record, its buffer or its check area, FENCE_NOTE into a note (R26, R30, R51,
R70, R147, R158, R160, R162, R163). That a halt also clears the mark of a reload in flight is read from the rules (log
28); that an append ends at its first field with nothing issued rests on the order of the fields (log 13). The order of the
pieces of a write split at 4 KiB boundaries is the model's choice (log 33). An order's TAKEN write lies inside the
order, whose fences are tested first (R36), so it is never refused alone. -/
def Obligations.HaltsAndRefusedWrites : Prop :=
  (∀ (cause : Cause) (s : State),
     (s.control.engine = .halted → halt cause s = s) ∧
     (s.control.engine ≠ .halted → halt cause s = raise .engineStopped { s with
       control := { s.control with
         engine := .halted, cause := cause, reloadAt := none, idleDeadline := none, idleElapsed := false }
       orderWalker := Walker.rest, noteWalker := Walker.rest
       blankWalkers := Vector.replicate 32 Walker.rest })) ∧
  (∀ (s : State) (cause : Cause) (a : Nat) (bytes : List Byte),
     (writePermitted s a bytes.length = true →
       writeHost cause a bytes s = { s with out := s.out ++ writeRequests a bytes }) ∧
     (writePermitted s a bytes.length = false → writeHost cause a bytes s = halt cause s)) ∧
  (∀ (s : State) (a : Nat), s.control.engine ≠ .halted →
     (∀ o, writePermitted s (a + 0x28) 1 = false → writeNoteOutcome a o s = halt .fenceNote s) ∧
     (∀ r n, writePermitted s (a + 0x089) 1 = false → finishAppend a r n s = halt .fenceOrder s) ∧
     (∀ p f, writePermitted s (a + 0x28) 1 = false → returnRecord p a f s = halt .fenceBlank s) ∧
     (s.finishedTail = none → writePermitted s (s.control.anchor.toNat + 0x050) 8 = false →
       linkFinished a s = halt .anchorWrite s) ∧
     (∀ tail, s.finishedTail = some tail → writePermitted s (tail + 0x080) 8 = false →
       linkFinished a s = halt .fenceOrder s) ∧
     (∀ p, s.lanes[p].filledTail = none →
       writePermitted s (s.control.anchor.toNat + 0x108 + 32 * p.val) 8 = false →
       linkFilled p a s = halt .anchorWrite s) ∧
     (∀ p tail, s.lanes[p].filledTail = some tail → writePermitted s (tail + 0x20) 8 = false →
       linkFilled p a s = halt .fenceBlank s)) ∧
  (∀ (s : State) (c : CtxId) (x : Context) (i : Nat) (e : LostEntry) (r : OpenRecord) (w S : Nat)
     (bytes check : List Byte), s.control.engine ≠ .halted → s.contexts[c] = some x → x.lost[i]? = some e →
     e.openRecord = some r →
     let place := r.blank.buffer + (w - r.first) * S
     let checkPlace := r.blank.checkArea + 4 * (w - r.first)
     (writePermitted s place bytes.length = false → fillRecord c i w S bytes check s = halt .fenceBlank s) ∧
     (writePermitted s place bytes.length = true → writePermitted s checkPlace check.length = false →
       fillRecord c i w S bytes check s =
         halt .fenceBlank { s with out := s.out ++ writeRequests place bytes }))

/-- In HALTED no command but the resets changes any block but the event unit, and none writes to host memory (R90, R108,
R125, R138, R151, R154, R162). -/
def Obligations.HaltedEngineStaysFrozen : Prop :=
  ∀ (c : Instr) (s t : State), s.control.engine = .halted → c ≠ .reset → c ≠ .coldReset →
    exec c s = .next t →
    t = { s with events := t.events, out := t.out, now := t.now } ∧
      ∀ o ∈ newOutputs s t, o.isWrite = false

/-- The fences read byte by byte: a run of bytes may be written when checking is off, or when each of its bytes lies
inside some enabled window (R163). -/
def Obligations.FencesArePerByte : Prop :=
  ∀ (s : State) (a len : Nat),
    writePermitted s a len = true ↔
      (∀ i : Fin 4, (s.control.fences[i]).enabled = false) ∨
      ∀ b, a ≤ b → b < a + len →
        ∃ i : Fin 4, (s.control.fences[i]).enabled = true ∧ (s.control.fences[i]).base.toNat ≤ b ∧
          b < (s.control.fences[i]).limit.toNat

/-- While fence checking is on, every host-memory write that a step issues lies inside an enabled fence window, in
every state; no step writes to host memory but in RUNNING, DOZING and STOPPING; and every request that a step issues lies
in one 4 KiB page of the 64-bit address space (R153, R163, R171). The write is tested whole, before it is split (log 25),
and the page of a request past the top of the address space is a free value (log 18). -/
def Obligations.WritesStayInsideFences : Prop :=
  (∀ s t : State, step s = .next t → ∀ o ∈ newOutputs s t, o.insideFences s.fenceList) ∧
  (∀ s t : State, step s = .next t → s.working = false → ∀ o ∈ newOutputs s t, o.isWrite = false) ∧
  (∀ s t : State, step s = .next t → ∀ o ∈ newOutputs s t, o.inOnePage)

/-! ## Walkers -/

/-- Leave to take: a walker in NEXT with leave enters READING and reads the whole record, 512 bytes for an order and 64 for a
note or a blank; the order walker has leave while a context is FREE, a blank walker while its stock holds fewer than 2
blanks, the note walker always; without leave nothing happens. A taken record's link moves its walker: HOLD to HELD at the
record with the revisit deadline of the engine's interval, a successor to NEXT; the record is the cursor. Leave comes with
the event: at the end of a take, and of every event that frees a context or removes a blank, each walker in NEXT with leave
reads its record, and nothing else changes (R23, R24). The order in which several walkers do so (log 30) and the order of
the pieces of a read split at 4 KiB boundaries (log 33) are the model's choice. -/
def Obligations.LeaveAndTakeMoveTheWalker : Prop :=
  (∀ (s : State) (w : WalkerId) (a : Nat), s.control.engine = .running ∨ s.control.engine = .dozing →
     (s.walker w).state = .next → (s.walker w).successor = some a →
     let leave : Prop := match w with
       | .order => ∃ c : CtxId, s.contexts[c] = none
       | .note => True
       | .blank p => s.lanes[p].stock.length < 2
     let len : Nat := match w with
       | .order => 512
       | .note => 64
       | .blank _ => 64
     (leave → exec (.leaveToTake w) s = .next
       { setWalker w { s.walker w with state := .reading, readAt := some s.now } s with
         out := s.out ++ readRequests a len }) ∧
     (¬leave → exec (.leaveToTake w) s = .next s)) ∧
  (∀ (s : State) (w : WalkerId) (a : Nat),
     walkOn w a .hold s = giveLeave (setWalker w
       { state := .held, cursor := .record a, successor := none
         deadline := some (s.now +
           if s.control.engine = .dozing then s.control.timers.dozeRevisit else s.control.timers.revisit)
         wakePending := false, readAt := none } s) ∧
     ∀ b, walkOn w a (.next b) s = giveLeave (setWalker w
       { state := .next, cursor := .record a, successor := some b, deadline := none, wakePending := false
         readAt := none } s)) ∧
  (∀ s : State,
     let leave : WalkerId → Bool := fun w => match w with
       | .order => (List.finRange 48).any fun c => (s.contexts[c]).isNone
       | .note => true
       | .blank p => decide (s.lanes[p].stock.length < 2)
     let len : WalkerId → Nat := fun w => match w with
       | .order => 512
       | .note => 64
       | .blank _ => 64
     let gets : WalkerId → Prop := fun w =>
       (s.walker w).state = .next ∧ (s.walker w).successor.isSome = true ∧ leave w = true
     let t := giveLeave s
     (s.control.engine ≠ .running → s.control.engine ≠ .dozing → t = s) ∧
     (s.control.engine = .running ∨ s.control.engine = .dozing →
       (∀ w, (gets w → t.walker w = { s.walker w with state := .reading, readAt := some s.now }) ∧
         (¬gets w → t.walker w = s.walker w)) ∧
       t.out = s.out ++ allWalkers.flatMap (fun w => match (s.walker w).successor with
         | none => []
         | some a => if (s.walker w).state = .next ∧ leave w = true then readRequests a (len w) else []) ∧
       t = { s with
         orderWalker := t.orderWalker, noteWalker := t.noteWalker, blankWalkers := t.blankWalkers, out := t.out }))

/-- A held tail whose deadline is reached is re-read: REVISITING, one read of the 8-byte link word. At its completion HOLD
puts the walker back in HELD with a deadline by the engine's interval, or, with wake-pending set, has it re-read at once;
a successor puts it in NEXT, from where it reads the record at once when it has leave; a malformed word halts with
CHAIN_MALFORMED, a failed read with CHAIN_READ; the cursor stays (R20, R23, R24, R25, R26). What leave does is
`LeaveAndTakeMoveTheWalker`'s. -/
def Obligations.RevisitRules : Prop :=
  (∀ (s : State) (w : WalkerId) (d a : Nat), s.control.engine = .running ∨ s.control.engine = .dozing →
     (s.walker w).state = .held → (s.walker w).deadline = some d → heldLinkAddr s w = some a →
     exec (.revisitDeadline w) s = .next
       { setWalker w
           { s.walker w with
             state := .revisiting, deadline := none, wakePending := false, readAt := some (max s.now d) } s with
         now := max s.now d, out := s.out ++ readRequests a 8 }) ∧
  (∀ (s : State) (w : WalkerId), s.control.engine = .running ∨ s.control.engine = .dozing →
     (s.walker w).state = .revisiting →
     exec (.revisitCompletion w .failed) s = .next (halt .chainRead s) ∧
     ∀ word : List Byte, word.length = 8 →
       (leNat word % 2 = 1 → (s.walker w).wakePending = false →
         exec (.revisitCompletion w (.data word)) s = .next (setWalker w
           { state := .held, cursor := (s.walker w).cursor, successor := none
             deadline := some (s.now +
               if s.control.engine = .dozing then s.control.timers.dozeRevisit else s.control.timers.revisit)
             wakePending := false, readAt := none } s)) ∧
       (∀ a, leNat word % 2 = 1 → (s.walker w).wakePending = true → heldLinkAddr s w = some a →
         exec (.revisitCompletion w (.data word)) s = .next
           { setWalker w { s.walker w with deadline := none, wakePending := false, readAt := some s.now } s with
             out := s.out ++ readRequests a 8 }) ∧
       (leNat word % 2 = 0 → leNat word ≠ 0 → leNat word % 64 = 0 →
         exec (.revisitCompletion w (.data word)) s = .next (giveLeave (setWalker w
           { state := .next, cursor := (s.walker w).cursor, successor := some (leNat word), deadline := none
             wakePending := false, readAt := none } s))) ∧
       (leNat word % 2 = 0 → leNat word = 0 ∨ leNat word % 64 ≠ 0 →
         exec (.revisitCompletion w (.data word)) s = .next (halt .chainMalformed s)))

/-- A record whose read failed, or whose link is malformed, is not taken: the engine halts with CHAIN_READ or
CHAIN_MALFORMED and nothing else happens. A record outside the fences at its take halts the engine with its cause and
is neither applied, stocked nor written: an order and a blank when some byte lies in no enabled window, a note when no
single window holds all 64 bytes (R20, R23, R26, R36, R54, R141). The two readings of a record inside the fences are
the model's (log 25). -/
def Obligations.BadRecordsHaltTheEngine : Prop :=
  (∀ (s : State) (w : WalkerId) (a : Nat), takes s w a →
     exec (takeCommand w .failed) s = .next (halt .chainRead s) ∧
     ∀ image : List Byte, image.length = recordLength w →
       leNat (image.take 8) % 2 = 0 → leNat (image.take 8) = 0 ∨ leNat (image.take 8) % 64 ≠ 0 →
       exec (takeCommand w (.data image)) s = .next (halt .chainMalformed s)) ∧
  (∀ (s : State) (w : WalkerId) (a : Nat) (image : List Byte), takes s w a →
     image.length = recordLength w → imageLink image ≠ .malformed → checkingOn s.fenceList = true →
     let outside : Prop := match w with
       | .note => ∀ v ∈ s.fenceList, ¬(v.enabled = true ∧ v.base.toNat ≤ a ∧ a + 64 ≤ v.limit.toNat)
       | .order => ∃ b, a ≤ b ∧ b < a + 512 ∧
           ∀ v ∈ s.fenceList, ¬(v.enabled = true ∧ v.base.toNat ≤ b ∧ b < v.limit.toNat)
       | .blank _ => ∃ b, a ≤ b ∧ b < a + 64 ∧
           ∀ v ∈ s.fenceList, ¬(v.enabled = true ∧ v.base.toNat ≤ b ∧ b < v.limit.toNat)
     let cause : Cause := match w with
       | .order => .fenceOrder
       | .note => .fenceNote
       | .blank _ => .fenceBlank
     outside → exec (takeCommand w (.data image)) s = .next (halt cause (recordTaken s)))

/-! ## Appends -/

/-- The two appends. Onto a filled chain: the record's fields in their order, its filled link with HOLD, then the
filled head or the old tail's link, the tail, and LANE_FILLED when the lane's notify flag is set. Onto the finished
chain: the result fields, FINISHED, the order's own link with HOLD, then the finished head or the old tail's link, the
tail, and ORDER_FINISHED when the order's notify flag is set (R29, R47, R48, R49, R147). The order of the fields among
themselves, the free bits of a link with HOLD and the order of the pieces of a split write are the model's choice (logs 13,
5 and 33). -/
def Obligations.AppendsInOrder : Prop :=
  (∀ (s : State) (p : LaneId) (record : Nat) (f : RecordFields), s.control.engine ≠ .halted →
     permits s (recordWrites s p record f) →
     returnRecord p record f s =
       let t := { issue (recordWrites s p record f) s with
         lanes := s.lanes.set p { s.lanes[p] with filledTail := some record } }
       if s.lanes[p].notify = true then raise .laneFilled t else t) ∧
  (∀ (s : State) (order : Nat) (r : OrderResult) (notify : Bool), s.control.engine ≠ .halted →
     permits s (finishWrites s order r) →
     finishAppend order r notify s =
       let t := { issue (finishWrites s order r) s with finishedTail := some order }
       if notify = true then raise .orderFinished t else t)

/-! ## Orders -/

/-- The fields of an order as read: each at its place and width, least significant byte first, hints above 3 taken as 3,
flags set by any value but 0, the slots read as far as their counts reach and no further than 6 and 19. Then the five
checks of an order in their order; each spelled out by the fields the order gives (R33, R37, R38, R39, R168, R170). -/
def Obligations.OrderValidationInOrder : Prop :=
  (∀ image : List Byte,
    let num : Nat → Nat → Nat := fun off width =>
      ((List.range width).map fun i => (image.getD (off + i) 0#8).toNat * 256 ^ i).sum
    readOrder image =
      { tag := num 0x008 2, profileIndex := num 0x00A 1, hint := min 3 (num 0x00B 1)
        notify := decide (num 0x00C 1 ≠ 0), length := num 0x010 4
        lostCount := num 0x00D 1
        lost := (List.range (min 6 (num 0x00D 1))).map fun i =>
          { frag := num (0x020 + 4 * i) 1, spread := decide (num (0x021 + 4 * i) 1 ≠ 0)
            key := num (0x022 + 4 * i) 2 }
        candCount := num 0x00E 1
        cands := (List.range (min 19 (num 0x00E 1))).map fun i =>
          { frag := num (0x040 + 2 * i) 1, rank := min 3 (num (0x041 + 2 * i) 1) } }) ∧
  ∀ (s : State) (o : RepairOrder),
    let lost := o.lost.map LostSlot.frag
    let cands := o.cands.map CandidateSlot.frag
    let named := ∃ i : Fin 16, i.val = o.profileIndex ∧ (s.control.profiles[i]).valid = true
    let badLength := o.length = 0 ∨ 268435456 < o.length
    let heldTag := ∃ (c : CtxId) (x : Context), s.contexts[c] = some x ∧ x.tag = o.tag
    (¬named → validateOrder s o = .error .profile) ∧
    (∀ i : Fin 16, i.val = o.profileIndex → (s.control.profiles[i]).valid = true →
      let p := s.control.profiles[i]
      let badLost := o.lostCount = 0 ∨ p.m < o.lostCount ∨ (∃ f ∈ lost, p.k + p.m ≤ f) ∨ ¬lost.Nodup
      let badCands := p.k + p.m - 1 < o.candCount ∨ (∃ f ∈ cands, p.k + p.m ≤ f) ∨ ¬cands.Nodup ∨
        ∃ f ∈ cands, f ∈ lost
      (badLength → validateOrder s o = .error .length) ∧
      (¬badLength → badLost → validateOrder s o = .error .lostList) ∧
      (¬badLength → ¬badLost → badCands → validateOrder s o = .error .candidateList) ∧
      (¬badLength → ¬badLost → ¬badCands → heldTag → validateOrder s o = .error .dupTag) ∧
      (¬badLength → ¬badLost → ¬badCands → ¬heldTag → validateOrder s o = .ok p))

/-- An order accepted: the FREE context with the lowest number is filled and SETTLING, TAKEN is written, the record counts
as taken and the walker goes on (R23, R35, R41, R42, R74 to R80). With k candidates or more, no pen note of its tag and a
settle interval, nothing else changes. With fewer than k candidates it drains UNRECOVERABLE LOSS and is finished at the
take, and pen notes of its tag are written DROPPED_LATE (R44, R45, R56). The pen notes of its tag leave the pen and are
applied to it oldest first, each with the outcome its checks give, written after TAKEN in pen order; then, when window 0 is
landed for k usable candidates or the settle interval is 0, the settle ends with the k best-ranked as its basis (R43, R60,
R82, R93). That the settle end is looked at after all pen notes, and at once under an interval of 0, is read from the rules
(logs 9 and 23); the pen notes leave the pen together (log 11), and the outcome field is written before the detail (log 13),
which are the model's choice. -/
def Obligations.AcceptedOrderFillsAContext : Prop :=
  ∀ (s : State) (a : Nat) (image : List Byte) (p : Profile) (c : CtxId), takes s .order a →
    image.length = 512 → imageLink image ≠ .malformed → writePermitted s a 512 = true →
    let o := readOrder image
    validateOrder s o = .ok p → s.contexts[c] = none → (∀ d : CtxId, d < c → (s.contexts[d]).isSome = true) →
    let fresh : Context :=
      { tag := o.tag, orderAddr := a, hint := o.hint, notify := o.notify, profile := p
        length := o.length, windows := windowCount o.length (4096 * 2 ^ p.sizeCode), state := .settling
        lost := o.lost.map fun l =>
          { frag := l.frag, spread := l.spread, key := l.key, lane := none, resolvedKey := none
            openRecord := none, recordsUsed := 0, preferred := none, groupFirst := none
            groupLast := none, starved := false }
        roster := o.cands.map fun l =>
          { frag := l.frag, rank := l.rank, state := .awaited, role := .spare, demotions := 0
            tried := false, ranges := [] }
        basis := [], changeCount := 0, generation := 0, rows := [], front := 0, ordinal := 0
        margin := (o.cands.length : Int) - p.k
        urgency := min o.hint (min (o.cands.length - p.k) 3)
        attempts := 0, settleDeadline := some (s.now + s.control.timers.settle)
        stragglerDeadline := none, stragglerArmed := false, cancelPending := false
        abortPending := false, solveOwed := false, notesAccepted := 0, demotions := 0, basesSolved := 0
        outcome := .new, detail := .none }
    let taken : State := { recordTaken s with
      out := s.out ++ [byteWrite (a + 0x088) 1], contexts := s.contexts.set c (some fresh) }
    let mine := s.pen.filter fun e => e.note.tag == o.tag
    let others := s.pen.filter fun e => e.note.tag != o.tag
    (0 < p.k → p.k ≤ o.cands.length → mine = [] → s.control.timers.settle ≠ 0 →
      exec (.orderTake (.data image)) s = .next (walkOn .order a (imageLink image) taken)) ∧
    (s.unfenced → p.k ≤ o.cands.length →
      exec (.orderTake (.data image)) s = .next (walkOn .order a (imageLink image)
        (finishIfDue c (settleAtDeadline c (settleIfLanded c
          (mine.foldl (fun u e => applyNote c e.addr e.note u) { taken with pen := others })))))) ∧
    (s.unfenced → o.cands.length < p.k → inFlight s c = false →
      let r : OrderResult :=
        { outcome := .unrecoverable, detail := .loss, front := 0, basesSolved := 0, demotions := 0
          notesAccepted := 0
          slots := List.replicate o.lost.length [0xFF#8, 0#8, 0#8, 0#8, 0#8, 0#8, 0#8, 0#8] }
      ∃ t, exec (.orderTake (.data image)) s = .next t ∧ t.contexts[c] = none ∧ t.pen = others ∧
        t.finishedTail = some a ∧
        (mine = [] → (finishAppend a r o.notify taken).out <+: t.out) ∧
        byteWrite (a + 0x088) 1 :: mine.map (fun e => byteWrite (e.addr + 0x28) 0x14) ++
          [byteWrite (a + 0x089) 2, byteWrite (a + 0x08A) 1] <+: newWrites s t) ∧
    (s.unfenced → p.k ≤ o.cands.length → (∀ e ∈ mine, e.note.kind = .data) →
      c ∉ s.solveQueue → s.solve.map Solve.ctx ≠ some c →
      let apply : Context → PenEntry → Context := fun x e =>
        if dataCheck x e.note = none then x.acceptData e.note else x
      let y := mine.foldl apply fresh
      let outcome : Nat → PenEntry → NoteOutcome := fun i e =>
        (dataCheck ((mine.take i).foldl apply fresh) e.note).getD .accepted
      let landed := y.roster.filter fun k => (k.state = .awaited ∨ k.state = .landing) ∧
        k.ranges.any (fun r => decide (r.first = 0 ∧ 0 < r.count)) = true
      let chosen := ((ranked 0 (y.roster.filter fun k => k.state = .awaited ∨ k.state = .landing)).take
        p.k).map Candidate.frag
      ∃ t, exec (.orderTake (.data image)) s = .next t ∧ t.pen = others ∧
        newWrites s t = byteWrite (a + 0x088) 1 ::
          mine.mapIdx (fun i e => byteWrite (e.addr + 0x28) (outcome i e).code) ∧
        (landed.length < p.k → s.control.timers.settle ≠ 0 → t.contexts[c] = some y) ∧
        (p.k ≤ landed.length ∨ s.control.timers.settle = 0 →
          (c ∈ t.solveQueue ∨ t.solve.map Solve.ctx = some c) ∧
          t.contexts[c] = some { y with
            state := .solving, settleDeadline := none, attempts := 0, changeCount := 1
            basis := chosen.insertionSort (· ≤ ·)
            roster := y.roster.map fun k =>
              { k with tried := decide (k.frag ∈ chosen)
                       role := if k.frag ∈ chosen then .basis else .spare } }))

/-- An order refused: its result REFUSED with the detail and zeros, NONE in each lost slot it has, appended to the
finished chain at once; no context is used and the pen stays (R37, R40). -/
def Obligations.RefusedOrderIsAppendedAtOnce : Prop :=
  ∀ (s : State) (a : Nat) (image : List Byte) (d : Detail), takes s .order a →
    image.length = 512 → imageLink image ≠ .malformed → writePermitted s a 512 = true →
    let o := readOrder image
    let r : OrderResult :=
      { outcome := .refused, detail := d, front := 0, basesSolved := 0, demotions := 0, notesAccepted := 0
        slots := List.replicate (min o.lostCount 6) [0xFF#8, 0#8, 0#8, 0#8, 0#8, 0#8, 0#8, 0#8] }
    validateOrder s o = .error d → permits s (finishWrites s a r) →
    exec (.orderTake (.data image)) s =
      .next (walkOn .order a (imageLink image) (finishAppend a r o.notify (recordTaken s)))

/-! ## Notes -/

/-- A good note whose tag no context in use holds enters the pen at the back with its orphan deadline and PENDING written; a
full pen first gives up its oldest entry, written DROPPED_ORPHAN; a bad kind is written DROPPED_FORMAT and enters no pen.
When an orphan deadline is reached, every entry whose deadline is reached leaves the pen and is written DROPPED_ORPHAN, in
the order they stood in the pen, with NOTE_DROPPED; the others keep their places and deadlines; then the engine enters
DOZING where the pen alone stood against it, as `DozeRules` says of the entry (R52, R53, R55, R57, R58, R59, R72, R160). -/
def Obligations.PenRules : Prop :=
  (∀ (s : State) (a : Nat) (image : List Byte), takes s .note a → image.length = 64 →
     imageLink image ≠ .malformed →
     (checkingOn s.fenceList = false ∨ insideOne s.fenceList a 64 = true) →
     writePermitted s (a + 0x28) 1 = true →
     let n := readNote image
     let entry : PenEntry := { addr := a, note := n, deadline := s.now + s.control.timers.orphan }
     (n.kind = .bad → exec (.noteTake (.data image)) s = .next (walkOn .note a (imageLink image)
       (raise .noteDropped { recordTaken s with out := s.out ++ [byteWrite (a + 0x28) 0x10] }))) ∧
     (n.kind ≠ .bad → (∀ (c : CtxId) (x : Context), s.contexts[c] = some x → x.tag ≠ n.tag) →
       (s.pen.length < 32 → exec (.noteTake (.data image)) s = .next (walkOn .note a (imageLink image)
         { recordTaken s with pen := s.pen ++ [entry], out := s.out ++ [byteWrite (a + 0x28) 1] })) ∧
       (∀ e es, s.pen = e :: es → 32 ≤ s.pen.length → writePermitted s (e.addr + 0x28) 1 = true →
         exec (.noteTake (.data image)) s = .next (walkOn .note a (imageLink image)
           (let t := raise .noteDropped { recordTaken s with
               pen := es, out := s.out ++ [byteWrite (e.addr + 0x28) 0x17] }
           { t with pen := es ++ [entry], out := t.out ++ [byteWrite (a + 0x28) 1] }))))) ∧
  (∀ (s : State) (pre post : List PenEntry) (e : PenEntry),
     s.control.engine = .running ∨ s.control.engine = .dozing → s.pen = pre ++ e :: post →
     let now := max s.now e.deadline
     ((∀ d ∈ pre ++ post, now < d.deadline) → writePermitted s (e.addr + 0x28) 1 = true →
       exec (.orphanExpiry pre.length) s = .next (enterDoze (raise .noteDropped { s with
         now := now, pen := pre ++ post, out := s.out ++ [byteWrite (e.addr + 0x28) 0x17] }))) ∧
     (s.unfenced → ∃ t, exec (.orphanExpiry pre.length) s = .next (enterDoze t) ∧
       t.pen = (s.pen.filter fun d => now < d.deadline) ∧
       newWrites s t = (s.pen.filter fun d => d.deadline ≤ now).map (fun d => byteWrite (d.addr + 0x28) 0x17) ∧
       t.events.bits = s.events.bits ||| 8#8 ∧
       t = { s with now := now, pen := t.pen, events := t.events, out := t.out }))

/-- The fields of a note as read: each at its place and width, least significant byte first, the kind by its code. Then the
six checks of a DATA note in their order, spelled out (R52, R62, R63, R168, R170). -/
def Obligations.DataNoteChecksInOrder : Prop :=
  (∀ image : List Byte,
    let num : Nat → Nat → Nat := fun off width =>
      ((List.range width).map fun i => (image.getD (off + i) 0#8).toNat * 256 ^ i).sum
    readNote image =
      { kind :=
          if num 0x08 1 = 1 then .data else if num 0x08 1 = 2 then .withdraw
          else if num 0x08 1 = 3 then .cancel else .bad
        tag := num 0x0A 2, frag := num 0x0C 1, first := num 0x10 4, count := num 0x14 4
        dataAddr := num 0x18 8, checksAddr := num 0x20 8 }) ∧
  ∀ (x : Context) (n : Note),
    let badRun := n.count = 0 ∨ 1024 < n.count ∨ x.windows < n.first + n.count ∨ n.dataAddr = 0 ∨
      n.dataAddr % 64 ≠ 0 ∨ n.checksAddr % 4 ≠ 0
    let late := n.first + n.count ≤ x.front
    ((∀ k ∈ x.roster, k.frag ≠ n.frag) → dataCheck x n = some .droppedNotCandidate) ∧
    (∀ pre k post, x.roster = pre ++ k :: post → k.frag = n.frag → (∀ j ∈ pre, j.frag ≠ n.frag) →
      let dead := k.state = .withdrawn ∨ k.state = .corrupt
      let overlap := ∃ r ∈ k.ranges, ∃ w, x.front ≤ w ∧ (n.first ≤ w ∧ w < n.first + n.count) ∧
        (r.first ≤ w ∧ w < r.first + r.count)
      (dead → dataCheck x n = some .droppedSourceDead) ∧
      (¬dead → badRun → dataCheck x n = some .droppedRange) ∧
      (¬dead → ¬badRun → late → dataCheck x n = some .droppedLate) ∧
      (¬dead → ¬badRun → ¬late → overlap → dataCheck x n = some .droppedOverlap) ∧
      (¬dead → ¬badRun → ¬late → ¬overlap → 8 ≤ k.ranges.length → dataCheck x n = some .droppedFull) ∧
      (¬dead → ¬badRun → ¬late → ¬overlap → k.ranges.length < 8 → dataCheck x n = none))

/-- A DATA note for a live context: dropped with the outcome of the first failing check and the context unchanged, or
ACCEPTED, with the ordinal, the range, LANDING and the count, after which the straggler condition, the settle end, and the
ready lists with the grant they may lead to are looked at (R55, R62, R64, R82, R98, R110, R112). The order of what is looked
at afterwards is the model's choice (logs 8 and 26). -/
def Obligations.DataNoteForALiveContext : Prop :=
  ∀ (s : State) (a : Nat) (image : List Byte) (c : CtxId) (x : Context), takes s .note a →
    image.length = 64 → imageLink image ≠ .malformed →
    (checkingOn s.fenceList = false ∨ insideOne s.fenceList a 64 = true) →
    writePermitted s (a + 0x28) 1 = true → s.contexts[c] = some x →
    (∀ (d : CtxId) (y : Context), d < c → s.contexts[d] = some y → y.tag ≠ x.tag) →
    let n := readNote image
    n.kind = .data → n.tag = x.tag → x.state ≠ .draining →
    (∀ o, dataCheck x n = some o → ∃ t, exec (.noteTake (.data image)) s = .next t ∧
      t = walkOn .note a (imageLink image) (arbitrate (settleIfLanded c (raise .noteDropped
        { recordTaken s with out := s.out ++ [byteWrite (a + 0x28) o.code] })))) ∧
    (dataCheck x n = none → exec (.noteTake (.data image)) s = .next (walkOn .note a (imageLink image)
      (arbitrate (settleIfLanded c (evaluateStraggler c false
        { recordTaken s with
          contexts := s.contexts.set c (some { x with
            ordinal := x.ordinal + 1
            notesAccepted := min 65535 (x.notesAccepted + 1)
            roster := x.roster.map fun k =>
              if k.frag = n.frag then
                { k with
                  state := if k.state = .awaited then .landing else k.state
                  ranges := k.ranges.orderedInsert (fun r q => r.first ≤ q.first)
                    { first := n.first, count := n.count, dataAddr := n.dataAddr
                      checks := if n.checksAddr = 0 then none else some n.checksAddr
                      ordinal := x.ordinal + 1 } }
              else k })
          out := s.out ++ [byteWrite (a + 0x28) 2] })))))

/-- Candidates lost by a live context: their state, their lists and their places in the basis; the margin counts the
usable ones anew; below 0 the context drains UNRECOVERABLE LOSS; else the class follows, a context on a ready list going to
the back of its new class's list and one on the solve queue to the back of the queue, and where a basis member was lost the basis is filled up again with the best-ranked
usable spares, tried marks on them alone, and the context's state follows by the table; one that leaves ACTIVE enters the
solve queue, and an idle solver begins its solve (R17, R18, R68, R76, R77, R86, R92, R94, R101, R102, R110, R118). What a
margin below 0 leaves of the basis is read from the rules (log 12). -/
def Obligations.LostCandidatesRebaseOrDrain : Prop :=
  ∀ (s : State) (c : CtxId) (x : Context) (frags : List Nat) (st : CandState),
    s.contexts[c] = some x → x.state ≠ .draining → st = .withdrawn ∨ st = .corrupt →
    let roster := x.roster.map fun k =>
      if k.frag ∈ frags then { k with state := st, ranges := [], role := .spare } else k
    let usable := roster.filter fun k => k.state = .awaited ∨ k.state = .landing
    let kept := x.basis.filter fun f => ¬f ∈ frags
    let margin : Int := (usable.length : Int) - x.profile.k
    let member := ∃ f ∈ x.basis, f ∈ frags
    let placed := ((ranked x.front (usable.filter fun k => k.role = .spare)).take
      (x.profile.k - kept.length)).map Candidate.frag
    let t := loseCandidates c frags st s
    ∃ y, t.contexts[c] = some y ∧ y.margin = margin ∧ y.front = x.front ∧
      y.rows = x.rows ∧ y.generation = x.generation ∧
      (margin < 0 → y.state = .draining ∧ y.outcome = .unrecoverable ∧ y.detail = .loss ∧
        y.urgency = x.urgency ∧ y.roster = roster ∧ y.basis = kept ∧ y.changeCount = x.changeCount) ∧
      (0 ≤ margin → y.urgency = min x.hint (min margin.toNat 3)) ∧
      (0 ≤ margin → ¬member → y.state = x.state ∧ y.roster = roster ∧ y.basis = x.basis ∧
        y.changeCount = x.changeCount) ∧
      (0 ≤ margin → ¬member → y.urgency ≠ x.urgency → c ∈ s.readyContexts → s.readyContexts.Nodup →
        ∀ i : Fin 4, t.arbiter.ready[i] =
          (s.arbiter.ready[i].filter fun d => d ≠ c) ++ (if i.val = y.urgency then [c] else [])) ∧
      (0 ≤ margin → ¬member ∨ x.state ≠ .active → t.solve = s.solve ∧
        (∀ pre post, y.urgency ≠ x.urgency → s.solveQueue = pre ++ c :: post → c ∉ pre →
          t.solveQueue = pre ++ post ++ [c]) ∧
        (y.urgency = x.urgency ∨ c ∉ s.solveQueue → t.solveQueue = s.solveQueue)) ∧
      (0 ≤ margin → member →
        y.basis = (kept ++ placed).insertionSort (· ≤ ·) ∧ y.changeCount = x.changeCount + 1 ∧
        y.attempts = 0 ∧
        y.roster = (roster.map fun k =>
          { k with
            tried := decide (k.frag ∈ placed)
            role := if k.frag ∈ kept ++ placed then .basis else .spare }) ∧
        y.state = (if x.state = .active then .solving else x.state) ∧
        y.solveOwed = (if x.state = .steering then true else x.solveOwed) ∧
        (x.state = .active → y.stragglerArmed = false ∧ y.stragglerDeadline = none ∧
          (c ∈ t.solveQueue ∨ t.solve.map Solve.ctx = some c) ∧
          (s.solve = none → s.solveQueue = [] → t.solve = some (solveFor c y) ∧ t.solveQueue = [])))

/-- A WITHDRAW for a live context: no candidate of its roster, DROPPED_NOT_CANDIDATE; a candidate already WITHDRAWN or
CORRUPT, DROPPED_SOURCE_DEAD; a usable one is lost, APPLIED is written, and the straggler condition and the drain it may have
begun follow. A CANCEL for a live context sets cancel-pending and drains it CANCELLED, with APPLIED written before any write
of the drain; the drain ends at this event unless a solve or combine of the context is in flight. A note for a DRAINING
context is written DROPPED_LATE and leaves it unchanged. The ready lists and the grant they may lead to follow each of
them (R45, R55, R56, R68, R69, R87, R88, R98, R110, R112). The order of the outcome write and what follows is the model's
choice (logs 8 and 26). -/
def Obligations.WithdrawAndCancelNotes : Prop :=
  (∀ (s : State) (a : Nat) (image : List Byte) (c : CtxId) (x : Context), takes s .note a →
     image.length = 64 → imageLink image ≠ .malformed → s.unfenced → s.contexts[c] = some x →
     (∀ (d : CtxId) (y : Context), d < c → s.contexts[d] = some y → y.tag ≠ x.tag) →
     let n := readNote image
     n.kind = .withdraw → n.tag = x.tag → x.state ≠ .draining →
     ((∀ k ∈ x.roster, k.frag ≠ n.frag) → exec (.noteTake (.data image)) s =
       .next (walkOn .note a (imageLink image) (arbitrate (raise .noteDropped
         { recordTaken s with out := s.out ++ [byteWrite (a + 0x28) 0x11] })))) ∧
     (∀ k, x.roster.find? (fun j => j.frag == n.frag) = some k → k.state = .withdrawn ∨ k.state = .corrupt →
       exec (.noteTake (.data image)) s =
         .next (walkOn .note a (imageLink image) (arbitrate (raise .noteDropped
           { recordTaken s with out := s.out ++ [byteWrite (a + 0x28) 0x12] })))) ∧
     (∀ k, x.roster.find? (fun j => j.frag == n.frag) = some k → k.state = .awaited ∨ k.state = .landing →
       let u := loseCandidates c [n.frag] .withdrawn (recordTaken s)
       exec (.noteTake (.data image)) s = .next (walkOn .note a (imageLink image)
         (arbitrate (finishIfDue c
           (evaluateStraggler c false { u with out := s.out ++ [byteWrite (a + 0x28) 3] })))))) ∧
  (∀ (s : State) (a : Nat) (image : List Byte) (c : CtxId) (x : Context), takes s .note a →
     image.length = 64 → imageLink image ≠ .malformed → s.unfenced → s.contexts[c] = some x →
     (∀ (d : CtxId) (y : Context), d < c → s.contexts[d] = some y → y.tag ≠ x.tag) →
     let n := readNote image
     n.tag = x.tag →
     (n.kind = .cancel → x.state ≠ .draining → ∃ t, exec (.noteTake (.data image)) s = .next t ∧
       s.out ++ [byteWrite (a + 0x28) 3] <+: t.out ∧
       (inFlight s c = false → t.contexts[c] = none ∧ t.finishedTail = some x.orderAddr) ∧
       (inFlight s c = true → t.contexts[c] = some { x with
         state := .draining, outcome := .cancelled, detail := .none, cancelPending := true
         settleDeadline := none, stragglerDeadline := none, stragglerArmed := false })) ∧
     (n.kind ≠ .bad → x.state = .draining → inFlight s c = true →
       ∃ t, exec (.noteTake (.data image)) s = .next t ∧ t.contexts[c] = some x ∧
         s.out ++ [byteWrite (a + 0x28) 0x14] <+: t.out ∧ t.events.bits.getLsbD 3 = true))

/-! ## Basis selection and the solver -/

/-- The ranking: the list sorted, best first, by landed front window, front landing sequence, demotion count, rank hint
and fragment index, and holding the same candidates (R91). -/
def Obligations.RankingFollowsTheKeys : Prop :=
  ∀ (front : Nat) (cs : List Candidate),
    let landing : Candidate → Option Nat := fun k =>
      (k.ranges.find? fun r => decide (r.first ≤ front ∧ front < r.first + r.count)).map Range.ordinal
    let rest : Candidate → Candidate → Prop := fun a b =>
      a.demotions < b.demotions ∨ (a.demotions = b.demotions ∧
        (a.rank < b.rank ∨ (a.rank = b.rank ∧ a.frag ≤ b.frag)))
    (ranked front cs).Perm cs ∧
    (ranked front cs).Pairwise fun a b =>
      match landing a, landing b with
      | some i, some j => i < j ∨ (i = j ∧ rest a b)
      | some _, none => True
      | none, some _ => False
      | none, none => rest a b

/-- The settle end at its deadline: the k best-ranked usable candidates become the basis by ascending index, all placed, the
change count rises, and the context is SOLVING on the solve queue. The straggler expiry: stragglers, worst first, paired
with the usable spares that hold the front window, best first; each pair swapped, its demotion counted, the spares alone
marked tried, and the context SOLVING at the back of the queue; the margin and the class stay. At that entry an idle solver
begins a solve, as SOLVE_BEGIN says; a busy one leaves the context waiting. Nothing else changes. The straggler timer of an
ACTIVE context, at each event that looks at it: where some basis member lacks the front window and some usable spare has it,
a timer that was not armed is armed one loaded straggler interval ahead, one that was is restarted so at an advance of the
front and left running at any other event; where the condition fails it is cleared (R82, R92, R93, R97, R98, R99, R101,
R102). -/
def Obligations.DeadlinesChooseTheBasis : Prop :=
  (∀ (s : State) (c : CtxId) (x : Context) (d : Nat),
     s.control.engine = .running ∨ s.control.engine = .dozing ∨ s.control.engine = .stopping →
     s.contexts[c] = some x → x.state = .settling → x.settleDeadline = some d →
     c ∉ s.solveQueue → s.solve.map Solve.ctx ≠ some c →
     let chosen := ((ranked x.front (x.roster.filter fun k => k.state = .awaited ∨ k.state = .landing)).take
       x.profile.k).map Candidate.frag
     let y : Context := { x with
       state := .solving, settleDeadline := none, attempts := 0, changeCount := x.changeCount + 1
       basis := chosen.insertionSort (· ≤ ·)
       roster := x.roster.map fun k =>
         { k with tried := decide (k.frag ∈ chosen)
                  role := if k.frag ∈ chosen then .basis else .spare } }
     let t : State := { s with now := max s.now d, contexts := s.contexts.set c (some y) }
     exec (.settleDeadline c) s = exec .solveBegin { t with solveQueue := s.solveQueue ++ [c] } ∧
     (s.solve.isSome = true →
       exec (.settleDeadline c) s = .next { t with solveQueue := s.solveQueue ++ [c] }) ∧
     (s.solve = none → s.solveQueue = [] →
       exec (.settleDeadline c) s = .next { t with solve := some (solveFor c y) })) ∧
  (∀ (s : State) (c : CtxId) (x : Context) (d : Nat),
     s.control.engine = .running ∨ s.control.engine = .dozing ∨ s.control.engine = .stopping →
     s.contexts[c] = some x → x.state = .active → x.stragglerArmed = true → x.stragglerDeadline = some d →
     c ∉ s.solveQueue → s.solve.map Solve.ctx ≠ some c →
     let landed : Candidate → Bool := fun k =>
       k.ranges.any fun r => decide (r.first ≤ x.front ∧ x.front < r.first + r.count)
     let stragglers := (ranked x.front (x.roster.filter fun k => k.frag ∈ x.basis ∧ landed k = false)).reverse
     let spares := ranked x.front (x.roster.filter fun k =>
       (k.state = .awaited ∨ k.state = .landing) ∧ k.role = .spare ∧ landed k = true)
     let n := min stragglers.length spares.length
     let outs := (stragglers.take n).map Candidate.frag
     let ins := (spares.take n).map Candidate.frag
     let basis := (x.basis.filter fun f => ¬f ∈ outs) ++ ins
     let y : Context := { x with
       state := .solving, stragglerArmed := false, stragglerDeadline := none, attempts := 0
       changeCount := x.changeCount + 1, demotions := min 255 (x.demotions + n)
       basis := basis.insertionSort (· ≤ ·)
       roster := x.roster.map fun k =>
         { k with
           demotions := if k.frag ∈ outs then k.demotions + 1 else k.demotions
           tried := decide (k.frag ∈ ins)
           role := if k.frag ∈ basis then .basis else .spare } }
     let t : State := { s with
       now := max s.now d, contexts := s.contexts.set c (some y)
       arbiter := { s.arbiter with ready := s.arbiter.ready.map fun l => l.erase c } }
     exec (.stragglerExpiry c) s = exec .solveBegin { t with solveQueue := s.solveQueue ++ [c] } ∧
     (s.solve.isSome = true →
       exec (.stragglerExpiry c) s = .next { t with solveQueue := s.solveQueue ++ [c] }) ∧
     (s.solve = none → s.solveQueue = [] →
       exec (.stragglerExpiry c) s = .next { t with solve := some (solveFor c y) })) ∧
  (∀ (x : Context) (now interval : Nat) (advanced : Bool),
     let landed : Candidate → Prop := fun k => ∃ r ∈ k.ranges, r.first ≤ x.front ∧ x.front < r.first + r.count
     let holds := x.state = .active ∧ (∃ k ∈ x.roster, k.frag ∈ x.basis ∧ ¬landed k) ∧
       ∃ k ∈ x.roster, (k.state = .awaited ∨ k.state = .landing) ∧ k.role = .spare ∧ landed k
     (holds → x.stragglerArmed = false ∨ advanced = true → x.evalStraggler now interval advanced =
       { x with stragglerArmed := true, stragglerDeadline := some (now + interval) }) ∧
     (holds → x.stragglerArmed = true → advanced = false → x.evalStraggler now interval advanced = x) ∧
     (¬holds → x.evalStraggler now interval advanced =
       { x with stragglerArmed := false, stragglerDeadline := none })) ∧
  (∀ (s : State) (c : CtxId) (x : Context) (advanced : Bool), s.contexts[c] = some x →
     (x.state = .active → evaluateStraggler c advanced s = { s with
       contexts := s.contexts.set c (some (x.evalStraggler s.now s.control.timers.straggler advanced)) }) ∧
     (x.state ≠ .active → evaluateStraggler c advanced s = s))

/-- An idle solver begins the solve of the queued context with the lowest class, the one nearest the front among
several, and records its change count, generation, basis, generator rows and lost fragments with the parity rows of the
lost parity fragments; a busy solver, or one without a context queued, begins nothing (R6, R102). -/
def Obligations.SolveBeginTakesTheMostUrgent : Prop :=
  (∀ (s : State) (pre post : List CtxId) (c : CtxId) (x : Context),
    s.control.engine = .running ∨ s.control.engine = .dozing ∨ s.control.engine = .stopping →
    s.solve = none → s.solveQueue = pre ++ c :: post → s.contexts[c] = some x →
    (∀ d ∈ pre, ∃ y, s.contexts[d] = some y ∧ x.urgency < y.urgency) →
    (∀ d ∈ post, ∃ y, s.contexts[d] = some y ∧ x.urgency ≤ y.urgency) →
    let parity : Nat → List Byte := fun f => (x.profile.coeffs.drop ((f - x.profile.k) * x.profile.k)).take x.profile.k
    exec .solveBegin s = .next { s with
      solveQueue := pre ++ post
      solve := some
        { ctx := c, changeCount := x.changeCount, generation := x.generation, basis := x.basis
          rows := x.basis.map fun f =>
            if f < x.profile.k then (List.range x.profile.k).map fun j => if j = f then 1#8 else 0#8 else parity f
          lost := x.lost.map fun e =>
            { frag := e.frag, parity := if e.frag < x.profile.k then none else some (parity e.frag) } } }) ∧
  (∀ s : State, s.control.engine = .running ∨ s.control.engine = .dozing ∨ s.control.engine = .stopping →
    exec .solveBegin s = .next (beginNext s) ∧
    (s.solve.isSome = true ∨ s.solveQueue = [] → exec .solveBegin s = .next s))

/-- A solve's completion in a context that has left SOLVING, or was marked, changes nothing of it, but for a drain that
waited for this solve alone: that drain finishes, and in STOPPING, when its context was the last, the engine is STOPPED
with ENGINE_STOPPED. In a context whose basis has changed the solve is discarded and the context queued again. Then the
solver, idle, begins the next solve of its queue, and retries, readiness, a grant and the end of the event follow (R23, R45,
R87, R102, R105, R110, R150, R159, R160). That the next solve begins before the retries (log 26), that the retries come
before the readiness and the grant (log 8), that UNUSED appends come last (log 19), and that the leave and the entry to
DOZING end the event (logs 26 and 30) is the model's choice. -/
def Obligations.StaleSolvesAreDiscarded : Prop :=
  ∀ (s : State) (v : Solve) (x : Context),
    s.control.engine = .running ∨ s.control.engine = .dozing ∨ s.control.engine = .stopping →
    s.solve = some v → s.contexts[v.ctx] = some x →
    (x.state ≠ .solving ∨ x.cancelPending = true ∨ x.abortPending = true →
      (x.state = .draining → s.combine.map Combine.ctx = some v.ctx) →
      exec .solveCompletion s = .next (endEvent (arbitrate (beginNext { s with solve := none })))) ∧
    (x.state = .draining → s.combine.map Combine.ctx ≠ some v.ctx → s.unfenced →
      ∃ t, exec .solveCompletion s = .next t ∧
        t = endEvent (arbitrate (beginNext (finishContext v.ctx { s with solve := none }))) ∧
        t.contexts[v.ctx] = none ∧ t.finishedTail = some x.orderAddr ∧
        (s.control.engine = .stopping → contextsInUse s = 1 →
          t.control.engine = .stopped ∧ t.events.bits.getLsbD 7 = true)) ∧
    (x.state = .solving → x.cancelPending = false → x.abortPending = false → x.changeCount ≠ v.changeCount →
      v.ctx ∉ s.solveQueue →
      exec .solveCompletion s = .next (endEvent (arbitrate (beginNext { s with
        solve := none, solveQueue := s.solveQueue ++ [v.ctx] }))))

/-- A solve that stands. SUCCESS installs the coefficient rows and raises the generation and the bases solved; a steered
context is then ACTIVE with its straggler condition evaluated afresh, another has its steering pass. SINGULAR raises the
attempt count: at the eighth the context drains UNRECOVERABLE SINGULAR; else its lowest-ranked tried member gives way to
the best-ranked untried spare and it is queued again, or without such a spare it drains. Then the solver begins the next
solve of its queue, and retries, readiness, a grant and the end of the event follow (R23, R83, R96, R102, R106, R107, R110,
R160). That the next solve begins before the retries (log 26), these before the readiness and the grant (log 8), and that
the leave and the entry to DOZING end the event (logs 26 and 30) is the model's choice. -/
def Obligations.StandingSolvesAreActedOn : Prop :=
  ∀ (s : State) (v : Solve) (x : Context), s.control.engine = .running ∨ s.control.engine = .dozing →
    s.solve = some v → s.contexts[v.ctx] = some x → x.state = .solving → x.cancelPending = false →
    x.abortPending = false → x.changeCount = v.changeCount → v.ctx ∉ s.solveQueue → s.unfenced →
    let after : State → State := fun u => endEvent (arbitrate (beginNext u))
    (∀ inverse, invertRows v.rows = some inverse →
      let y : Context := { x with
        rows := v.lost.map (coefficientRow inverse)
        generation := x.generation + 1, basesSolved := min 255 (x.basesSolved + 1) }
      let t := { s with solve := none, contexts := s.contexts.set v.ctx (some y) }
      ((∀ e ∈ x.lost, e.lane.isSome = true) → exec .solveCompletion s = .next (after { t with
        contexts := s.contexts.set v.ctx (some
          (({ y with state := .active, stragglerArmed := false, stragglerDeadline := none }).evalStraggler
            s.now s.control.timers.straggler false)) })) ∧
      ((∃ e ∈ x.lost, e.lane = none) →
        exec .solveCompletion s = .next (after (finishIfDue v.ctx (enterSteering v.ctx t))))) ∧
    (invertRows v.rows = none →
      let placed := x.roster.filter fun k => k.frag ∈ x.basis ∧ k.tried = true
      let untried := x.roster.filter fun k =>
        (k.state = .awaited ∨ k.state = .landing) ∧ k.role = .spare ∧ k.tried = false
      let t := { s with
        solve := none, contexts := s.contexts.set v.ctx (some { x with attempts := x.attempts + 1 }) }
      (8 ≤ x.attempts + 1 ∨ placed = [] ∨ untried = [] → exec .solveCompletion s =
        .next (after (finishIfDue v.ctx (enterDraining v.ctx .unrecoverable .singular t)))) ∧
      (∀ out into, x.attempts + 1 < 8 → (ranked x.front placed).getLast? = some out →
        (ranked x.front untried).head? = some into →
        let basis := (x.basis.filter fun f => f ≠ out.frag) ++ [into.frag]
        exec .solveCompletion s = .next (after { t with
          solveQueue := s.solveQueue ++ [v.ctx]
          contexts := s.contexts.set v.ctx (some { x with
            attempts := x.attempts + 1, changeCount := x.changeCount + 1
            basis := basis.insertionSort (· ≤ ·)
            roster := x.roster.map fun k =>
              { k with
                tried := k.tried || decide (k.frag = into.frag)
                role := if k.frag ∈ basis then .basis else .spare } }) })))

/-- A successful solve reproduces the stripe: for any data bytes at one position, every lost fragment's coefficient row
applied to the survivors' bytes gives the fragment's own byte, data or parity (R6, R103, R104). -/
def Obligations.DecodingReproducesTheStripe : Prop :=
  ∀ (p : Profile) (basis lost : List Nat) (data : List Byte) (inverse : List (List Byte)),
    p.coeffs.length = p.m * p.k → data.length = p.k → basis.length = p.k →
    (∀ f ∈ basis, f < p.k + p.m) → (∀ f ∈ lost, f < p.k + p.m) →
    let byteOf : Nat → Byte := fun f => gfDot (p.generatorRow f) data
    invertRows (basis.map p.generatorRow) = some inverse →
    ∀ f ∈ lost, gfDot (coefficientRow inverse (p.lostRow f)) (basis.map byteOf) = byteOf f ∧
      ∀ i b, data[i]? = some b → byteOf i = b

/-- SINGULAR is the answer exactly for a basis that cannot decode: one on which some data bytes, not all 0, give 0 on
every member, as the data bytes 0 do (R6, R103). -/
def Obligations.SingularMeansUndecodable : Prop :=
  ∀ rows : List (List Byte), (∀ r ∈ rows, r.length = rows.length) →
    (invertRows rows = none ↔
      ∃ data : List Byte, data.length = rows.length ∧ (∃ a ∈ data, a ≠ 0#8) ∧ ∀ r ∈ rows, gfDot r data = 0#8)

/-! ## Steering -/

/-- The steering lookup: with sep_0 = 0 and sep_32 = 65,536 interval i covers the keys from sep_i up to sep_(i+1); over
separators that do not decrease every key lies in exactly one interval, whose kind and lane the lookup reads; a null
interval covers nothing; interval 31 covers key 65,535; with every separator 0 all keys lie in interval 31 (R128). -/
def Obligations.EveryKeyHasOneInterval : Prop :=
  ∀ t : SteeringTable, (∀ i : Fin 31, t.seps[i] < 65536) → (∀ i j : Fin 31, i ≤ j → t.seps[i] ≤ t.seps[j]) →
    let sep : Nat → Nat := fun i => if h : 1 ≤ i ∧ i ≤ 31 then t.seps[i - 1] else if i = 0 then 0 else 65536
    let covers : Fin 32 → Nat → Prop := fun i key => sep i.val ≤ key ∧ key < sep (i.val + 1)
    (∀ key, key < 65536 → (∃ i, covers i key ∧ ∀ j, covers j key → j = i) ∧
      ∀ i, covers i key → t.lookup key = some t.intervals[i]) ∧
    (∀ i : Fin 32, sep i.val = sep (i.val + 1) → ∀ key, ¬covers i key) ∧
    covers 31 65535 ∧
    ((∀ i : Fin 31, t.seps[i] = 0) → ∀ key, key < 65536 → t.lookup key = some t.intervals[31])

/-- The groups: a lane ends a group when its flag is set or it is lane 31; a lane's group runs from the lane after the
nearest such lane below it, or lane 0, to the first such lane at or above it; its fallback order is the group's lanes
taken cyclically from it. A group of one lane gives that lane alone, and with no flag set all lanes are one group
(R129). -/
def Obligations.GroupsAndFallbackOrder : Prop :=
  ∀ (t : SteeringTable) (p : LaneId),
    let ends : LaneId → Prop := fun q => t.groupEnd[q] = true ∨ q = 31
    let first := t.groupFirst p
    let last := t.groupLast p
    let order := fallbackOrder p first last
    (p ≤ last ∧ ends last ∧ ∀ q, p ≤ q → q < last → ¬ends q) ∧
    (first ≤ p ∧ (∀ q, first ≤ q → q < p → ¬ends q) ∧
      (first = 0 ∨ ∃ q : LaneId, q.val + 1 = first.val ∧ ends q)) ∧
    order.Nodup ∧ (∀ q, q ∈ order ↔ first ≤ q ∧ q ≤ last) ∧ order.length = last.val - first.val + 1 ∧
    (∀ (i : Nat) (h : i < order.length),
      (order[i]).val = first.val + (p.val - first.val + i) % (last.val - first.val + 1)) ∧
    (first = last → order = [p]) ∧
    ((∀ q : LaneId, t.groupEnd[q] = false) → first = 0 ∧ last = 31)

/-- The LFSR's step is the shift with the exclusive OR of bits 15, 13, 12 and 10 brought in, and from any non-zero value
the steps run through all 65,535 non-zero values before they return to it (R130). -/
def Obligations.LfsrRunsThroughEveryNonzeroValue : Prop :=
  (∀ v : BitVec 16,
    (lfsrStep v).getLsbD 0 = ((v.getLsbD 15 ^^ v.getLsbD 13) ^^ (v.getLsbD 12 ^^ v.getLsbD 10)) ∧
    ∀ i, i < 15 → (lfsrStep v).getLsbD (i + 1) = v.getLsbD i) ∧
  ∀ v : BitVec 16, v ≠ 0 →
    (lfsrStep^[65535]) v = v ∧ (∀ n, 0 < n → n < 65535 → (lfsrStep^[n]) v ≠ v) ∧
    ∀ w : BitVec 16, w ≠ 0 → ∃ n, n < 65535 ∧ (lfsrStep^[n]) v = w

/-- The resolution of a fragment: FORBIDDEN fails; NORMAL without the spread flag resolves to the key itself and leaves
the LFSR; every other case draws, at most 8 times, each draw one LFSR step, until a key falls in a NORMAL interval;
spread range 0 fails UNRESOLVED without a step (R131, R132). -/
def Obligations.ResolutionDrawsAtMostEight : Prop :=
  ∀ (t : SteeringTable) (v : BitVec 16) (e : LostEntry) (iv : Interval), t.lookup e.key = some iv →
    let key : Nat → Nat := fun n => t.spreadBase + ((lfsrStep^[n + 1]) v).toNat % t.spreadRange
    let draws : Prop := iv.kind = .spread ∨ (iv.kind = .normal ∧ e.spread = true)
    (iv.kind = .forbidden → resolveEntry t v e = (v, .failed .forbidden)) ∧
    (iv.kind = .normal → e.spread = false → resolveEntry t v e = (v, .resolved e.key iv.lane)) ∧
    (draws → t.spreadRange = 0 → resolveEntry t v e = (v, .failed .unresolved)) ∧
    (∀ n p, draws → t.spreadRange ≠ 0 → n < 8 → t.lookup (key n) = some { kind := .normal, lane := p } →
      (∀ m, m < n → ∀ q, t.lookup (key m) ≠ some { kind := .normal, lane := q }) →
      resolveEntry t v e = ((lfsrStep^[n + 1]) v, .resolved (key n) p)) ∧
    (draws → t.spreadRange ≠ 0 →
      (∀ m, m < 8 → ∀ q, t.lookup (key m) ≠ some { kind := .normal, lane := q }) →
      resolveEntry t v e = ((lfsrStep^[8]) v, .failed .unresolved))

/-- A steering pass resolves the lost fragments in lost-list order, each from the LFSR value the fragment before left. When
each resolves, each has its resolved key, its preferred lane and that lane's group, and the first attempt follows. At the
first that fails the context drains STEER_FAILED with that detail: the fragments before it keep what their resolution gave,
it and those after it stay as they were, without a resolved key when they had none; no lane is assigned, no blank reserved
and no event set (R84, R130, R132, R133). -/
def Obligations.SteeringPassResolvesInOrder : Prop :=
  ∀ (s : State) (c : CtxId) (x : Context), s.contexts[c] = some x →
    let table := s.control.steering
    let lfsrAfter : List LostEntry → BitVec 16 := fun es =>
      es.foldl (fun v e => (resolveEntry table v e).1) s.steering.lfsr
    (∀ lost : List LostEntry, lost.length = x.lost.length →
      (∀ pre e post, x.lost = pre ++ e :: post → ∃ key p,
        (resolveEntry table (lfsrAfter pre) e).2 = .resolved key p ∧
        lost[pre.length]? = some { e with
          resolvedKey := some key, preferred := some p
          groupFirst := some (table.groupFirst p), groupLast := some (table.groupLast p) }) →
      enterSteering c s = attemptSteering c { s with
        steering := { s.steering with lfsr := lfsrAfter x.lost }
        contexts := s.contexts.set c (some { x with state := .steering, lost := lost }) }) ∧
    (∀ pre e post d, x.lost = pre ++ e :: post →
      (∀ a g b, pre = a ++ g :: b → ∃ key p, (resolveEntry table (lfsrAfter a) g).2 = .resolved key p) →
      (resolveEntry table (lfsrAfter pre) e).2 = .failed d →
      ∃ y, (enterSteering c s).contexts[c] = some y ∧ y.state = .draining ∧ y.outcome = .steerFailed ∧
        y.detail = d ∧ y.lost.map LostEntry.lane = x.lost.map LostEntry.lane ∧
        (∃ resolved, y.lost = resolved ++ e :: post ∧ resolved.length = pre.length ∧
          ∀ a g b, pre = a ++ g :: b → ∃ key p,
            (resolveEntry table (lfsrAfter a) g).2 = .resolved key p ∧
            resolved[a.length]? = some { g with
              resolvedKey := some key, preferred := some p
              groupFirst := some (table.groupFirst p), groupLast := some (table.groupLast p) }) ∧
        (enterSteering c s).steering.lfsr = lfsrAfter (pre ++ [e]) ∧
        (enterSteering c s).lanes = s.lanes ∧ (enterSteering c s).events = s.events)

/-- An assignment attempt gives the lost fragments their blanks in lost-list order: a fragment with a lane reserves the
oldest available blank of that lane; one without takes the first lane of its fallback order with an available blank, and
the oldest such blank there; where there is none the fragment waits. When every fragment then has a reservation in its lane
the context leaves the wait list and STEERING, to SOLVING when a solve is owed, entering the solve queue, and else to
ACTIVE; when one waits, every reservation of the context is released and it is on the wait list, at its back when it was
not on it, with LANE_STARVED set then and only then. A lane once assigned stays. A blank that becomes available on a lane
calls for a retry when a waiting context's wait involves it, and at the end of the event an attempt is made for each
context whose wait involves a lane of that event, in wait-list order, each seeing what the attempts before left; then the
readiness of all contexts and the grant are looked at (R84, R101, R110, R112, R134, R135, R136). That the attempts come
before the grant, the mark on a lane, and the retry as a command beside its event are the model's choice (logs 8, 21
and 1). -/
def Obligations.SteeringAttemptsAndRetries : Prop :=
  let free : StockEntry → Prop := fun k => k.reservation = none ∧ k.claim = none
  let involves : State → CtxId → LaneId → Prop := fun s c p => ∃ x, s.contexts[c] = some x ∧ ∃ e ∈ x.lost,
    e.lane = some p ∨ (e.lane = none ∧ ∃ a b, e.groupFirst = some a ∧ e.groupLast = some b ∧ a ≤ p ∧ p ≤ b)
  (∀ (s : State) (c : CtxId) (x : Context) (i : Nat) (e : LostEntry),
     s.contexts[c] = some x → x.lost[i]? = some e →
     let bare : LaneId → Prop := fun p => ∀ k ∈ s.lanes[p].stock, ¬free k
     let takes : LaneId → Prop := fun p => e.lane = some p ∨ (e.lane = none ∧ ∃ q a b before after,
       e.preferred = some q ∧ e.groupFirst = some a ∧ e.groupLast = some b ∧
       fallbackOrder q a b = before ++ p :: after ∧ ∀ r ∈ before, bare r)
     (∀ p pre k post, takes p → s.lanes[p].stock = pre ++ k :: post → (∀ j ∈ pre, ¬free j) → free k →
       assignFragment c s i = { s with
         lanes := s.lanes.set p { s.lanes[p] with
           stock := pre ++ { k with reservation := some { ctx := c, frag := e.frag } } :: post }
         contexts := s.contexts.set c (some { x with lost := x.lost.set i { e with lane := some p } }) }) ∧
     ((∀ p, e.lane = some p → bare p) →
       (e.lane = none → ∀ q a b, e.preferred = some q → e.groupFirst = some a → e.groupLast = some b →
         ∀ r ∈ fallbackOrder q a b, bare r) →
       assignFragment c s i = s)) ∧
  (∀ (s : State) (c : CtxId) (x : Context), s.contexts[c] = some x → x.state = .steering →
     let u := (List.range x.lost.length).foldl (assignFragment c) s
     ∃ y, u.contexts[c] = some y ∧
       let held := ∀ e ∈ y.lost, ∃ p, e.lane = some p ∧
         ∃ k ∈ u.lanes[p].stock, k.reservation = some { ctx := c, frag := e.frag }
       let off : State := { u with steering := { u.steering with waitList := u.steering.waitList.erase c } }
       let given : State := { u with lanes := u.lanes.map fun l => { l with stock := l.stock.map fun k =>
         { k with reservation := if (k.reservation.any fun q => q.ctx == c) = true then none else k.reservation } } }
       (held → x.solveOwed = true → attemptSteering c s = enterQueue c { off with
         contexts := u.contexts.set c (some { y with state := .solving, solveOwed := false }) }) ∧
       (held → x.solveOwed = false → attemptSteering c s = { off with
         contexts := u.contexts.set c (some
           (({ y with state := .active, stragglerArmed := false, stragglerDeadline := none }).evalStraggler
             s.now s.control.timers.straggler false)) }) ∧
       (¬held → c ∈ s.steering.waitList → attemptSteering c s = given) ∧
       (¬held → c ∉ s.steering.waitList → attemptSteering c s = raise .laneStarved { given with
         steering := { u.steering with waitList := u.steering.waitList ++ [c] } })) ∧
  (∀ (s : State) (c : CtxId) (x : Context), s.contexts[c] = some x → x.state = .steering →
     s.steering.waitList.Nodup → ∃ y, (attemptSteering c s).contexts[c] = some y ∧
       y.lost.map LostEntry.frag = x.lost.map LostEntry.frag ∧
       (∀ (i : Nat) (p : LaneId), (x.lost[i]?).bind LostEntry.lane = some p → (y.lost[i]?).bind LostEntry.lane = some p) ∧
       (((∀ e ∈ y.lost, ∃ p, e.lane = some p ∧ ∃ k ∈ ((attemptSteering c s).lanes[p]).stock,
             k.reservation = some { ctx := c, frag := e.frag }) ∧
           c ∉ (attemptSteering c s).steering.waitList ∧
           y.state = (if x.solveOwed = true then .solving else .active)) ∨
         ((∀ (p : LaneId), ∀ k ∈ ((attemptSteering c s).lanes[p]).stock, ∀ f,
             k.reservation ≠ some { ctx := c, frag := f }) ∧
           c ∈ (attemptSteering c s).steering.waitList ∧ y.state = .steering))) ∧
  (∀ (s : State) (p : LaneId),
     ((∃ c ∈ s.steering.waitList, involves s c p) → p ∉ s.steering.retryDue → blankAvailable p s =
       { s with steering := { s.steering with retryDue := s.steering.retryDue ++ [p] } }) ∧
     ((∀ c ∈ s.steering.waitList, ¬involves s c p) ∨ p ∈ s.steering.retryDue → blankAvailable p s = s)) ∧
  (∀ (s : State) (waiters : List CtxId), waiters.Sublist s.steering.waitList → s.steering.waitList.Nodup →
     (∀ c ∈ s.steering.waitList, c ∈ waiters ↔ ∃ p ∈ s.steering.retryDue, involves s c p) →
     arbitrate s = grantNext (reevaluate (waiters.foldl (fun u c => attemptSteering c u)
       { s with steering := { s.steering with retryDue := [] } }))) ∧
  (∀ (s : State) (p : LaneId), s.control.engine = .running ∨ s.control.engine = .dozing →
     p ∈ s.steering.retryDue →
     let t := { s with steering := { s.steering with retryDue := s.steering.retryDue.erase p } }
     ∀ waiters : List CtxId, waiters.Sublist s.steering.waitList →
       s.steering.waitList.Nodup → (∀ c ∈ s.steering.waitList, c ∈ waiters ↔ involves s c p) →
       exec (.steeringRetry p) s =
         .next (grantNext (reevaluate (waiters.foldl (fun u c => attemptSteering c u) t))))

/-! ## The combine unit -/

/-- After a re-evaluation a context in use that is not the grantee stands on a ready list exactly when it is ready:
ACTIVE, every basis member with the front window landed, every lost fragment with a place for its next window. A context that
turns ready is appended at the back of the list of its class, one that turns not ready leaves its list, and the others keep
their order. A fragment of such a context that waits in ACTIVE, with its survivors landed, for a blank that its lane does not
hold is starved: its mark is set and LANE_STARVED with it, and a fragment whose mark is set already sets nothing. Nothing
else changes (R109, R110, R111, R148). That several contexts that turn ready at one event are appended by ascending number
is the model's choice (log 8), and that the grantee is not looked at before its completion is read from the rules (log
10). -/
def Obligations.ReadyListsHoldTheReady : Prop :=
  ∀ s : State, s.readyContexts.Nodup →
    (∀ (c : CtxId) (x : Context), s.contexts[c] = some x → s.arbiter.grantee ≠ some c →
      (c ∈ (reevaluate s).readyContexts ↔ isReady s c = true)) ∧
    (∀ (c : CtxId) (x : Context), s.contexts[c] = some x →
      (isReady s c = true ↔ x.state = .active ∧
        (∀ k ∈ x.roster, k.frag ∈ x.basis → ∃ r ∈ k.ranges, r.first ≤ x.front ∧ x.front < r.first + r.count) ∧
        ∀ e ∈ x.lost, ∃ p, e.lane = some p ∧
          (e.openRecord.isSome = true ∨
            (∃ k ∈ s.lanes[p].stock, k.reservation = some { ctx := c, frag := e.frag }) ∨
            x.lost.countP (fun g => g.lane == some p && g.openRecord.isNone &&
                s.lanes[p].stock.all fun k => k.reservation != some { ctx := c, frag := g.frag }) ≤
              s.lanes[p].stock.countP fun k => k.reservation.isNone && k.claim.isNone))) ∧
    (∀ i : Fin 4, (reevaluate s).arbiter.ready[i] =
      (s.arbiter.ready[i].filter fun c =>
        (s.contexts[c]).isNone || s.arbiter.grantee == some c || isReady s c) ++
      (List.finRange 48).filter fun c =>
        ((s.contexts[c]).any fun x => min x.urgency 3 == i.val) && s.arbiter.grantee != some c &&
          isReady s c && !s.readyContexts.contains c) ∧
    (∀ (c : CtxId) (x : Context) (e : LostEntry), s.contexts[c] = some x →
      (isStarved s c x e = true ↔ x.state = .active ∧
        (∀ k ∈ x.roster, k.frag ∈ x.basis → ∃ r ∈ k.ranges, r.first ≤ x.front ∧ x.front < r.first + r.count) ∧
        e.openRecord = none ∧ ∃ p, e.lane = some p ∧
          (∀ k ∈ s.lanes[p].stock, k.reservation ≠ some { ctx := c, frag := e.frag }) ∧
          s.lanes[p].stock.countP (fun k => k.reservation.isNone && k.claim.isNone) <
            x.lost.countP (fun g => g.lane == some p && g.openRecord.isNone &&
              s.lanes[p].stock.all fun k => k.reservation != some { ctx := c, frag := g.frag }))) ∧
    (∀ c : CtxId, (reevaluate s).contexts[c] = (s.contexts[c]).map fun x =>
      if s.arbiter.grantee = some c then x
      else { x with lost := x.lost.map fun e => { e with starved := e.starved || isStarved s c x e } }) ∧
    (let found := ∃ (c : CtxId) (x : Context), s.contexts[c] = some x ∧ s.arbiter.grantee ≠ some c ∧
       ∃ e ∈ x.lost, e.starved = false ∧ isStarved s c x e = true
     (found → (reevaluate s).events = (raise .laneStarved s).events ∧
       (reevaluate s).out = (raise .laneStarved s).out) ∧
     (¬found → (reevaluate s).events = s.events ∧ (reevaluate s).out = s.out)) ∧
    reevaluate s = { s with
      contexts := (reevaluate s).contexts, events := (reevaluate s).events, out := (reevaluate s).out
      arbiter := { s.arbiter with ready := (reevaluate s).arbiter.ready } }

/-- A grant: the head of the most urgent non-empty ready list leaves the lists and becomes the grantee, with turn
count 1, the loaded quota, and its first combine begun: the front window, the counts, each member's range that holds
the window, the rows and the valid length recorded, one blank claimed for every lost fragment without an open record,
and the members' reads issued. The blank claimed is the one reserved for the fragment, or else the oldest that bears no
mark. A unit with a grantee, or with every list empty, grants nothing. After a completion a ready grantee below its quota
begins its next combine; one with its quota used joins the back of its class's list and its turn ends; one that is not
ready ends its turn and joins no list. At the end of an event no ready context waits while the unit has no grantee (R9,
R10, R112, R113, R114, R115). The order of the reads (log 31) and of the pieces of a split one (log 33), of the claims (log 32) and of the re-evaluation that follows
(log 8) is the model's choice. -/
def Obligations.CombineGrantBeginsATurn : Prop :=
  let begun : State → CtxId → Context → State := fun s c x =>
    let S := 4096 * 2 ^ x.profile.sizeCode
    let members := x.basis.filterMap fun f =>
      (x.roster.find? fun k => k.frag == f).bind fun k =>
        (k.ranges.find? fun r => decide (r.first ≤ x.front ∧ x.front < r.first + r.count)).map fun r =>
          ({ frag := k.frag, first := r.first, dataAddr := r.dataAddr, checks := r.checks
             readFailed := false } : Member)
    let len := min S (x.length - x.front * S)
    let reads : List Output := members.flatMap fun m =>
      readRequests (m.dataAddr + (x.front - m.first) * S) len ++
        (match m.checks with
        | none => []
        | some a => readRequests (a + 4 * (x.front - m.first)) 4)
    { s with
      arbiter := { s.arbiter with turnCount := s.arbiter.turnCount + 1 }
      combine := some
        { ctx := c, window := x.front, changeCount := x.changeCount, generation := x.generation
          members := members, rows := x.rows, validLength := len, begunAt := s.now }
      lanes := (x.lost.foldl (claimFor c) s).lanes
      out := s.out ++ reads }
  (∀ (s : State) (c : CtxId) (e : LostEntry),
    let mine : StockEntry → Prop := fun k => k.reservation = some { ctx := c, frag := e.frag }
    let claimed : LaneId → List StockEntry → State := fun p stock =>
      { s with lanes := s.lanes.set p { s.lanes[p] with stock := stock } }
    (e.openRecord.isSome = true ∨ e.lane = none → claimFor c s e = s) ∧
    (∀ p pre k post, e.openRecord = none → e.lane = some p → s.lanes[p].stock = pre ++ k :: post →
      ((∀ j ∈ pre, ¬mine j) → mine k →
        claimFor c s e = claimed p (pre ++ { k with claim := some e.frag } :: post)) ∧
      ((∀ j ∈ s.lanes[p].stock, ¬mine j) →
        (∀ j ∈ pre, j.reservation ≠ none ∨ j.claim ≠ none) → k.reservation = none → k.claim = none →
        claimFor c s e = claimed p (pre ++ { k with claim := some e.frag } :: post)))) ∧
  (∀ (s : State) (i : Fin 4) (c : CtxId) (tail : List CtxId) (x : Context),
    s.control.engine = .running ∨ s.control.engine = .dozing ∨ s.control.engine = .stopping →
    s.arbiter.grantee = none → s.arbiter.ready[i] = c :: tail → (∀ j : Fin 4, j < i → s.arbiter.ready[j] = []) →
    s.contexts[c] = some x →
    exec .combineGrant s = .next (reevaluate (begun { s with
      arbiter :=
        { ready := s.arbiter.ready.map fun l => l.erase c
          grantee := some c, turnCount := 0, turnQuota := s.control.timers.quota } } c x))) ∧
  (∀ s : State, s.control.engine = .running ∨ s.control.engine = .dozing ∨ s.control.engine = .stopping →
    exec .combineGrant s = .next (grantNext s) ∧
    (s.arbiter.grantee.isSome = true ∨ s.readyContexts = [] → exec .combineGrant s = .next s)) ∧
  (∀ (s : State) (c : CtxId),
    (s.contexts[c] = none ∨ isReady s c = false →
      endOfTurn c s = { s with arbiter := { s.arbiter with grantee := none } }) ∧
    (∀ x, s.contexts[c] = some x → isReady s c = true →
      (s.arbiter.turnCount < s.arbiter.turnQuota → endOfTurn c s = begun s c x) ∧
      (∀ i : Fin 4, i.val = min x.urgency 3 → s.arbiter.turnQuota ≤ s.arbiter.turnCount →
        endOfTurn c s = { s with arbiter := { s.arbiter with
          grantee := none, ready := s.arbiter.ready.set i (s.arbiter.ready[i] ++ [c]) } }))) ∧
  (∀ s : State, (arbitrate s).arbiter.grantee = none → (arbitrate s).readyContexts = [])

/-- A completion that no longer belongs to its context delivers nothing: no write but those of STOPPING, the front, the
roster and the basis as they were, the claims released; a drain that waited for this combine alone finishes, and in
STOPPING, when its context was the last, no blank without a reservation stays in stock and the engine is STOPPED with
ENGINE_STOPPED. One that stands and finds a member's read failed, or a selected check lane of a checked window differing,
makes exactly those members CORRUPT and writes nothing; when it finds none and the unit's own arithmetic failed on checked
windows, the context drains INTERNAL_MISMATCH. The turn ends and the next grant follows at the same event (R15, R23, R45,
R76, R87, R112, R113, R117, R118, R119, R124, R136, R149, R150, R159, R160). The release of claims clears every claim mark,
leaves each blank in its place, and calls for the retries of each lane on which a blank without a reservation is released
(the mark on the lane: log 21). The model's choices are that the retries, and then the
readiness that the released claims change, come before the end of the turn and the grant, which R136 and R149 leave open
(log 8), that in STOPPING the UNUSED appends come after the drain's own, which R147 leaves open (log 19), that the leave
and the entry to DOZING end the event (logs 26 and 30), and that the unit's own failure is an operand (log 20). -/
def Obligations.BadCombinesDeliverNothing : Prop :=
  (∀ s : State,
     let involves : CtxId → LaneId → Prop := fun d p => ∃ y, s.contexts[d] = some y ∧ ∃ e ∈ y.lost,
       e.lane = some p ∨ (e.lane = none ∧ ∃ a b, e.groupFirst = some a ∧ e.groupLast = some b ∧ a ≤ p ∧ p ≤ b)
     let t := releaseClaims s
     (∀ p : LaneId, t.lanes[p] = { s.lanes[p] with stock := s.lanes[p].stock.map fun k => { k with claim := none } }) ∧
     (∀ p : LaneId, p ∈ t.steering.retryDue ↔ p ∈ s.steering.retryDue ∨
       ((∃ k ∈ s.lanes[p].stock, k.claim.isSome = true ∧ k.reservation = none) ∧
         ∃ d ∈ s.steering.waitList, involves d p)) ∧
     t = { s with
       lanes := t.lanes, steering := { s.steering with retryDue := t.steering.retryDue } }) ∧
  (∀ (s : State) (op : Combine) (x : Context) (reads : List SurvivorRead) (fault : Bool),
     s.control.engine = .running ∨ s.control.engine = .dozing ∨ s.control.engine = .stopping →
     s.combine = some op → s.contexts[op.ctx] = some x →
     readsFit op reads = true → s.arbiter.grantee = some op.ctx →
     x.state ≠ .active ∨ x.cancelPending = true ∨ x.abortPending = true ∨ x.changeCount ≠ op.changeCount ∨
       x.generation ≠ op.generation →
     ((x.state = .draining → s.solve.map Solve.ctx = some op.ctx) → s.control.engine ≠ .stopping ∨ s.unfenced →
       ∃ t y, exec (.combineCompletion reads fault) s = .next t ∧ t.contexts[op.ctx] = some y ∧
         y.front = x.front ∧ y.roster = x.roster ∧ y.basis = x.basis ∧ (x.state ≠ .steering → y.state = x.state) ∧
         (s.control.engine ≠ .stopping → ∀ o ∈ newOutputs s t, o.isWrite = false) ∧
         (t.combine = none → ∀ (p : LaneId), ∀ k ∈ t.lanes[p].stock, k.claim = none) ∧
         (s.control.engine = .stopping → t.control.engine = .stopping ∧
           ∀ (p : LaneId), ∀ k ∈ t.lanes[p].stock, k.reservation.isSome = true ∨ k.claim.isSome = true)) ∧
     (x.state = .draining → s.solve.map Solve.ctx ≠ some op.ctx → s.unfenced →
       ∃ t, exec (.combineCompletion reads fault) s = .next t ∧
         t = endEvent (arbitrate (endOfTurn op.ctx (reevaluate (retryWaiting
           (finishContext op.ctx (releaseClaims { s with combine := none })))))) ∧
         t.contexts[op.ctx] = none ∧ t.finishedTail = some x.orderAddr ∧
         (s.control.engine = .stopping → contextsInUse s = 1 → t.control.engine = .stopped ∧
           t.events.bits.getLsbD 7 = true ∧
           ∀ (p : LaneId), ∀ k ∈ t.lanes[p].stock, k.reservation.isSome = true ∨ k.claim.isSome = true))) ∧
  (∀ (s : State) (op : Combine) (x : Context) (reads : List SurvivorRead) (fault : Bool),
     s.control.engine = .running ∨ s.control.engine = .dozing → s.combine = some op → s.contexts[op.ctx] = some x →
     readsFit op reads = true → x.state = .active → x.cancelPending = false → x.abortPending = false →
     x.changeCount = op.changeCount → x.generation = op.generation → s.unfenced →
     let S := 4096 * 2 ^ x.profile.sizeCode
     let windowOf : SurvivorRead → List Byte := fun r => padWindow S (bytesOf r.data)
     let bad : Member × SurvivorRead → Prop := fun mr =>
       mr.1.readFailed = true ∨ mr.2.data = .failed ∨
         (mr.1.checks.isSome = true ∧ (mr.2.check = .failed ∨
           ∃ t : Fin 4, x.profile.mask.getLsbD t.val = true ∧
             (windowCheck (windowOf mr.2)).getD t.val 0 ≠ (bytesOf mr.2.check).getD t.val 0))
     let pairs := List.zip op.members reads
     let u := releaseClaims { s with combine := none }
     let after : State → State := fun v =>
       endEvent (arbitrate (endOfTurn op.ctx (reevaluate (retryWaiting (finishIfDue op.ctx v)))))
     (∀ frags : List Nat, frags ≠ [] → List.Sublist frags (op.members.map Member.frag) →
       (op.members.map Member.frag).Nodup →
       (∀ mr ∈ pairs, mr.1.frag ∈ frags ↔ bad mr) →
       exec (.combineCompletion reads fault) s = .next (after (loseCandidates op.ctx frags .corrupt u))) ∧
     ((∀ mr ∈ pairs, ¬bad mr) → (∀ m ∈ op.members, m.checks.isSome = true) → fault = true →
       exec (.combineCompletion reads fault) s =
         .next (after (enterDraining op.ctx .internalMismatch .none u))))

/-- A completion that stands with every survivor passing delivers one window of every lost fragment, in lost-list order:
a record is opened from the blank claimed for a fragment that has none, the output's data and then its check are written at
the record's place for the window, its count rises, and it is closed FINAL at the last window, else FILLED at its capacity.
Then the front rises by one, the ranges wholly below it are trimmed, and the straggler timer is armed or restarted one loaded
interval ahead where the condition holds at the new front, and cleared where it does not. At the front W the context drains COMPLETE and is
finished and freed in the same completion, after every write of its handovers; and the unit is granted again at the same
event while a ready context waits (R10, R97, R98, R104, R112, R119, R120, R121, R144, R145, R146, R172). The order of a
record's fields among themselves (log 13) and of the pieces of a write split at 4 KiB boundaries (log 33) is the model's
choice. -/
def Obligations.GoodCombineDeliversAWindow : Prop :=
  (∀ (s : State) (c : CtxId) (y : Context) (i : Nat) (e : LostEntry) (p : LaneId), s.contexts[c] = some y →
    y.lost[i]? = some e → e.lane = some p → s.unfenced → s.control.engine ≠ .halted →
    let set : LostEntry → Vector (Option Context) 48 := fun g =>
      s.contexts.set c (some { y with lost := y.lost.set i g })
    (∀ w r, e.openRecord = some r → openClaimed c i w s = s) ∧
    (∀ w pre k post, e.openRecord = none → s.lanes[p].stock = pre ++ k :: post → k.claim = some e.frag →
      (∀ j ∈ pre, j.claim ≠ some e.frag) →
      openClaimed c i w s = { s with
        lanes := s.lanes.set p { s.lanes[p] with stock := pre ++ post }
        contexts := set { e with
          openRecord := some { blank := k.blank, first := w, count := 0 }
          recordsUsed := e.recordsUsed + 1, starved := false } }) ∧
    (∀ (x : Context) (op : Combine) (output : List Byte) (r : OpenRecord), e.openRecord = some r →
      let S := 4096 * 2 ^ x.profile.sizeCode
      let filled : State := { s with
        out := s.out ++
          (writeRequests (r.blank.buffer + (op.window - r.first) * S) (output.take op.validLength) ++
            writeRequests (r.blank.checkArea + 4 * (op.window - r.first)) (windowCheck output))
        contexts := set { e with openRecord := some { r with count := r.count + 1 } } }
      let closed : DeliveryStatus → State := fun status =>
        { returnRecord p r.blank.addr
            { status := status, tag := y.tag, frag := e.frag, key := e.resolvedKey.getD 0
              first := r.first, count := r.count + 1 } filled with
          contexts := set { e with openRecord := none } }
      handOver c x op i output s =
        if op.window + 1 = x.windows then closed .final
        else if r.count + 1 = r.blank.capacity then closed .filled
        else filled)) ∧
  (∀ (s : State) (op : Combine) (x : Context) (reads : List SurvivorRead),
    s.control.engine = .running ∨ s.control.engine = .dozing → s.combine = some op → s.contexts[op.ctx] = some x →
    readsFit op reads = true → x.state = .active → x.cancelPending = false → x.abortPending = false →
    x.changeCount = op.changeCount → x.generation = op.generation → s.unfenced →
    let S := 4096 * 2 ^ x.profile.sizeCode
    let survivors := List.zipWith (survivorOf S) op.members reads
    (∀ v ∈ survivors, v.fails x.profile.mask = false) →
    endsInMismatch x.profile.mask S op.rows survivors false = false →
    op.rows.length = x.lost.length → (x.lost.map LostEntry.frag).Nodup →
    let claimed : LostEntry → Option StockEntry := fun e =>
      e.lane.bind fun p => s.lanes[p].stock.find? fun k => k.claim == some e.frag
    let record : LostEntry → Option OpenRecord := fun e =>
      e.openRecord.or ((claimed e).map fun k => { blank := k.blank, first := op.window, count := 0 })
    (∀ e ∈ x.lost, e.lane.isSome = true ∧ (record e).isSome = true) →
    let output : Nat → List Byte := fun i =>
      combineWindows S (op.rows.getD i []) (survivors.map Survivor.window)
    let writes : List Output := (List.range x.lost.length).flatMap fun i =>
      match (x.lost[i]?).bind record with
      | none => []
      | some r =>
        writeRequests (r.blank.buffer + (op.window - r.first) * S) ((output i).take op.validLength) ++
          writeRequests (r.blank.checkArea + 4 * (op.window - r.first)) (windowCheck (output i))
    let closes : List Output → LostEntry → OpenRecord → DeliveryStatus → Prop := fun os e r status =>
      ∃ (u : State) (n : Nat) (p : LaneId), e.lane = some p ∧ u.control.anchor = s.control.anchor ∧
        issued (recordWrites u p r.blank.addr
          { status := status, tag := x.tag, frag := e.frag, key := e.resolvedKey.getD 0
            first := r.first, count := r.count + 1 }) n <:+: os
    ∃ t, exec (.combineCompletion reads false) s = .next t ∧
      (t.arbiter.grantee = none → t.readyContexts = []) ∧
      (op.window + 1 < x.windows → ∃ y, t.contexts[op.ctx] = some y ∧ y.front = op.window + 1 ∧
        y.state = .active ∧
        (y.roster = x.roster.map fun k =>
          { k with ranges := k.ranges.filter fun r => decide (op.window + 1 < r.first + r.count) }) ∧
        (let landed : Candidate → Prop := fun k => ∃ r ∈ k.ranges, r.first ≤ y.front ∧ y.front < r.first + r.count
         let holds := (∃ k ∈ y.roster, k.frag ∈ y.basis ∧ ¬landed k) ∧
           ∃ k ∈ y.roster, (k.state = .awaited ∨ k.state = .landing) ∧ k.role = .spare ∧ landed k
         y.basis = x.basis ∧
         (holds → y.stragglerArmed = true ∧ y.stragglerDeadline = some (s.now + s.control.timers.straggler)) ∧
         (¬holds → y.stragglerArmed = false ∧ y.stragglerDeadline = none)) ∧
        List.Sublist writes (newOutputs s t) ∧ y.lost.length = x.lost.length ∧
        (∀ (i : Nat) (e : LostEntry) (r : OpenRecord), x.lost[i]? = some e → record e = some r → ∃ g : LostEntry, y.lost[i]? = some g ∧ g.lane = e.lane ∧
          g.recordsUsed = e.recordsUsed + (if e.openRecord = none then 1 else 0) ∧
          (r.count + 1 = r.blank.capacity → g.openRecord = none ∧ closes (newOutputs s t) e r .filled) ∧
          (r.count + 1 ≠ r.blank.capacity → g.openRecord = some { r with count := r.count + 1 })) ∧
        ((∀ e ∈ x.lost, ∃ r, e.openRecord = some r ∧ r.count + 1 < r.blank.capacity) →
          s.out ++ writes <+: t.out)) ∧
      (op.window + 1 = x.windows → s.solve.map Solve.ctx ≠ some op.ctx →
        t.contexts[op.ctx] = none ∧ t.finishedTail = some x.orderAddr ∧
        ∃ before rest, newOutputs s t = before ++ byteWrite (x.orderAddr + 0x089) 1 :: rest ∧
          byteWrite (x.orderAddr + 0x088) 2 ∈ rest ∧ List.Sublist writes before ∧
          ∀ e ∈ x.lost, ∀ r, record e = some r → closes before e r .final))

/-- The check is linear, so a unit that computes as the rules say never meets a MISMATCH: whatever its survivors hold,
if each passes its verification, every output's check equals its prediction in all four lanes (R12, R16, R119). -/
def Obligations.PredictionsAreMetWithoutAFault : Prop :=
  ∀ (mask : BitVec 4) (S : Nat) (rows : List (List Byte)) (members : List Member) (reads : List SurvivorRead),
    members.length = reads.length →
    (∀ row ∈ rows, row.length = members.length) →
    (∀ r ∈ reads, (bytesOf r.data).length ≤ S) →
    let survivors := List.zipWith (survivorOf S) members reads
    (∀ v ∈ survivors, v.fails mask = false) →
    endsInMismatch mask S rows survivors false = false

/-- A drain with nothing to wait for ends: the open records closed CLOSED_EARLY in lost-list order, then the finish
append, then the context FREE and its reservations released, a released blank that bears no claim calling for the retries of
its lane. Those retries, the readiness of all contexts and the grant follow, and in STOPPING, when the context was the
last, STOPPED with ENGINE_STOPPED; the event ends as every such event does. No other context is drained or freed (R23, R45,
R46, R47, R48, R49, R88, R110, R136, R149, R150, R159, R160). The model's choices are the order of the result fields among
themselves (log 13), that the retries come before the readiness and the grant, which R136 and R149 leave open (log 8), the
mark `retryDue` on a lane (log 21), that in STOPPING the UNUSED appends come last (log 19), and that the leave and the entry
to DOZING end the event (logs 26 and 30). -/
def Obligations.DrainFinishFreesTheContext : Prop :=
  (∀ (s : State) (c : CtxId) (x : Context) (i : Nat) (e : LostEntry), s.contexts[c] = some x → x.lost[i]? = some e →
    s.unfenced → s.control.engine ≠ .halted →
    (e.openRecord = none → closeFragment c i .closedEarly s = s) ∧
    (∀ p r, e.lane = some p → e.openRecord = some r → closeFragment c i .closedEarly s =
      { returnRecord p r.blank.addr
          { status := .closedEarly, tag := x.tag, frag := e.frag, key := e.resolvedKey.getD 0
            first := r.first, count := r.count } s with
        contexts := s.contexts.set c (some { x with lost := x.lost.set i { e with openRecord := none } }) })) ∧
  (∀ (s : State) (c : CtxId) (x : Context),
    s.control.engine = .running ∨ s.control.engine = .dozing ∨ s.control.engine = .stopping →
    s.contexts[c] = some x → x.state = .draining → s.solve.map Solve.ctx ≠ some c →
    s.combine.map Combine.ctx ≠ some c → s.unfenced →
    let slots := x.lost.map fun e =>
      leBytes 1 (match e.lane with | none => 0xFF | some p => p.val) ++
        leBytes 1 (if x.front = x.windows then 2 else if x.front = 0 then 0 else 1) ++
        leBytes 2 (e.resolvedKey.getD 0) ++ leBytes 4 e.recordsUsed
    let r : OrderResult :=
      { outcome := x.outcome, detail := x.detail, front := x.front, basesSolved := x.basesSolved
        demotions := x.demotions, notesAccepted := x.notesAccepted, slots := slots }
    let closed := (List.range x.lost.length).foldl (fun u i => closeFragment c i .closedEarly u) s
    let ofContext : StockEntry → Prop := fun k => ∃ q, k.reservation = some q ∧ q.ctx = c
    let involves : CtxId → LaneId → Prop := fun d p => d ≠ c ∧ ∃ y, s.contexts[d] = some y ∧ ∃ e ∈ y.lost,
      e.lane = some p ∨ (e.lane = none ∧ ∃ a b, e.groupFirst = some a ∧ e.groupLast = some b ∧ a ≤ p ∧ p ≤ b)
    ∃ u t, exec (.drainFinish c) s = .next t ∧ t = endEvent (arbitrate u) ∧
      u.contexts = s.contexts.set c none ∧ u.out = (finishAppend x.orderAddr r x.notify closed).out ∧
      u.finishedTail = some x.orderAddr ∧ u.control = s.control ∧ u.pen = s.pen ∧
      u.solveQueue = s.solveQueue ∧ u.arbiter = s.arbiter ∧
      (∀ (p : LaneId), u.lanes[p].filledTail = closed.lanes[p].filledTail ∧
        u.lanes[p].stock = s.lanes[p].stock.map fun k =>
          { k with reservation := if ∃ q, k.reservation = some q ∧ q.ctx = c then none else k.reservation }) ∧
      u.steering.waitList = s.steering.waitList ∧
      (∀ p : LaneId, p ∈ u.steering.retryDue ↔ p ∈ s.steering.retryDue ∨
        ((∃ k ∈ s.lanes[p].stock, ofContext k ∧ k.claim = none) ∧ ∃ d ∈ s.steering.waitList, involves d p)) ∧
      t.contexts[c] = none ∧ t.finishedTail = some x.orderAddr ∧ u.out <+: t.out ∧
      (∀ (d : CtxId) (y : Context), d ≠ c → s.contexts[d] = some y →
        ∃ z, t.contexts[d] = some z ∧ z.tag = y.tag ∧ (y.state ≠ .steering → z.state = y.state)) ∧
      (s.control.engine = .stopping → contextsInUse s = 1 →
        t.control.engine = .stopped ∧ t.events.bits.getLsbD 7 = true))

/-! ## Delivery lanes -/

/-- A blank taken inside the fences: unusable by its addresses, by running past the top of the address space, or by
the fences over its largest ranges, it is returned FENCED with zeros; else it joins the back of its lane's stock
unmarked, its lane is marked for the contexts whose wait involves it, and at the end of the event their attempts, the
readiness of all contexts and a grant follow (R110, R112, R136, R140, R142, R143). The order of the record fields among
themselves is the model's choice (log 13), as are the mark (log 21) and that the attempts come before the grant (log
8). -/
def Obligations.TakenBlankIsStockedOrFenced : Prop :=
  ∀ (s : State) (p : LaneId) (a : Nat) (image : List Byte), takes s (.blank p) a → image.length = 64 →
    imageLink image ≠ .malformed → writePermitted s a 64 = true →
    let buffer := leNat ((image.drop 0x08).take 8)
    let area := leNat ((image.drop 0x10).take 8)
    let capacity := leNat ((image.drop 0x18).take 1) + 1
    let unusable := buffer = 0 ∨ buffer % 64 ≠ 0 ∨ area = 0 ∨ area % 4 ≠ 0 ∨
      2 ^ 64 < buffer + capacity * 65536 ∨ 2 ^ 64 < area + capacity * 4 ∨
      writePermitted s buffer (capacity * 65536) = false ∨ writePermitted s area (capacity * 4) = false
    let zeros : RecordFields := { status := .fenced, tag := 0, frag := 0, key := 0, first := 0, count := 0 }
    (unusable → permits s (recordWrites s p a zeros) → exec (.blankTake p (.data image)) s =
      .next (walkOn (.blank p) a (imageLink image) (returnRecord p a zeros (recordTaken s)))) ∧
    (¬unusable → exec (.blankTake p (.data image)) s = .next (walkOn (.blank p) a (imageLink image)
      (arbitrate (blankAvailable p { recordTaken s with
        lanes := s.lanes.set p { s.lanes[p] with
          stock := s.lanes[p].stock ++
            [{ blank := { addr := a, buffer := buffer, checkArea := area, capacity := capacity }
               reservation := none, claim := none }] } }))))

/-! ## Arithmetic -/

/-- The field product is the product of polynomials over the two-element field reduced modulo x^8 + x^4 + x^3 + x^2 + 1,
and is the shift-and-add value; it is commutative and associative, distributes over the sum, has 1 as its identity and 0
as its zero, and has no zero divisors (R2). -/
def Obligations.FieldProductIsThePolynomialProduct : Prop :=
  let poly : Byte → Polynomial (ZMod 2) := fun a =>
    ∑ i ∈ Finset.range 8, if a.getLsbD i = true then (Polynomial.X : Polynomial (ZMod 2)) ^ i else 0
  let field : Polynomial (ZMod 2) :=
    Polynomial.X ^ 8 + Polynomial.X ^ 4 + Polynomial.X ^ 3 + Polynomial.X ^ 2 + 1
  let double : Byte → Byte := fun a => if a.getLsbD 7 = true then (a <<< 1) ^^^ 0x1D#8 else a <<< 1
  (∀ a b : Byte, poly (gfMul a b) = (poly a * poly b) %ₘ field) ∧
  (∀ a b : Byte, gfMul a b = [7, 6, 5, 4, 3, 2, 1, 0].foldl
    (fun acc i => if b.getLsbD i = true then double acc ^^^ a else double acc) 0#8) ∧
  (∀ a b : Byte, gfMul a b = gfMul b a) ∧
  (∀ a b c : Byte, gfMul (gfMul a b) c = gfMul a (gfMul b c)) ∧
  (∀ a b c : Byte, gfMul a (b ^^^ c) = gfMul a b ^^^ gfMul a c) ∧
  (∀ a : Byte, gfMul 1#8 a = a) ∧ (∀ a : Byte, gfMul 0#8 a = 0#8) ∧
  (∀ a b : Byte, a ≠ 0#8 → b ≠ 0#8 → gfMul a b ≠ 0#8)

/-- Powers and inverses: a^0 is 1; the powers of 2 from 0 to 254 are the 255 non-zero elements, each once, and 2^255 is
1; exponents of a non-zero element reduce modulo 255; a^254 is the one inverse of a non-zero a, and 0 has none (R3). -/
def Obligations.PowersAndInverses : Prop :=
  (∀ a : Byte, gfPow a 0 = 1#8) ∧ (∀ (a : Byte) (e : Nat), gfPow a (e + 1) = gfMul (gfPow a e) a) ∧
  gfPow 2#8 255 = 1#8 ∧ (∀ a : Byte, a ≠ 0#8 → ∃ e, e < 255 ∧ gfPow 2#8 e = a ∧
    ∀ f, f < 255 → gfPow 2#8 f = a → f = e) ∧
  (∀ (a : Byte) (e : Nat), a ≠ 0#8 → gfPow a e = gfPow a (e % 255)) ∧
  (∀ a : Byte, a ≠ 0#8 → gfMul a (gfInv a) = 1#8 ∧ ∀ b, gfMul a b = 1#8 → b = gfInv a) ∧
  (∀ b : Byte, gfMul 0#8 b ≠ 1#8)

/-- The window check: lane t is the sum of the window's bytes, byte j weighted by g_t to the power S − 1 − j, for the
generators 1, 2, 4 and 8 in lane order; lane 0 is the exclusive OR of the bytes; and the check of a short window padded
with zeros is its Horner value times g_t to the number of zeros (R11, R12, R13). -/
def Obligations.CheckIsTheWeightedSum : Prop :=
  ∀ (S : Nat) (bytes : List Byte), bytes.length ≤ S →
    let window := padWindow S bytes
    window.length = S ∧
    windowCheck window = [1#8, 2#8, 4#8, 8#8].map (fun g =>
      gfSum (window.mapIdx fun j x => gfMul (gfPow g (S - 1 - j)) x)) ∧
    (windowCheck window).getD 0 0 = gfSum bytes ∧
    windowCheck window = [1#8, 2#8, 4#8, 8#8].map fun g =>
      gfMul (bytes.foldl (fun h x => gfMul h g ^^^ x) 0#8) (gfPow g (S - bytes.length))

/-! ## Invariants of every step -/

/-- The reset state meets every invariant below. -/
def Obligations.ResetMeetsTheInvariants : Prop :=
  State.reset.loadedSound ∧ State.reset.walkersSound ∧ State.reset.storesSound ∧ State.reset.tagsDistinct ∧
    State.reset.listsSound

/-- Every step keeps what is loaded sound: ANCHOR a multiple of 4096, the timers and the quota in their ranges, the
separators in order and every draw in the key space, no loaded profile failing its validation, the fences on 4 KiB
boundaries, the LFSR not 0, and no idle deadline or mark under a loaded idle-to-doze value of 0 (R7, R127, R130, R155, R157,
R160, R163; log 16). -/
def Obligations.LoadedItemsStaySound : Prop :=
  ∀ s t : State, s.loadedSound → step s = .next t → t.loadedSound

/-- Every step keeps the walkers IDLE with nothing held outside RUNNING and DOZING, and a DOZING engine without contexts and
pen notes; it leaves no walker in NEXT that has leave and a successor, and no RUNNING engine that meets every condition of
the entry to DOZING; and it keeps the pen at 32 notes or fewer, and every stock at 2 blanks or fewer (R21, R23, R26, R57,
R58, R140, R153, R160). -/
def Obligations.WalkersAndStoresStaySound : Prop :=
  (∀ s t : State, s.walkersSound → step s = .next t → t.walkersSound) ∧
  (∀ s t : State, s.storesSound → step s = .next t → t.storesSound)

/-- Every step keeps the tags of the contexts in use distinct (R39). -/
def Obligations.TagsStayDistinct : Prop :=
  ∀ s t : State, s.tagsDistinct → step s = .next t → t.tagsDistinct

/-- Every step keeps the solve queue, the wait list and the ready lists free of repeats, the grantee off the ready lists,
the combine unit serving the grantee alone, and no ready context waiting while the unit has no grantee (R101, R111, R112,
R114, R136). -/
def Obligations.ListsStayDistinct : Prop :=
  ∀ s t : State, s.listsSound → step s = .next t → t.listsSound
end

