-- ==== Sys2Proof/Laws/State.lean ====
section
/-! SUPPORT. What each plain update of the state leaves in each field: one lemma per field per update. -/

namespace Sys2Proof.Machine

variable (s : State)

/-! ## `emit` -/

@[simp] theorem emit_control (os : List Output) : (emit os s).control = s.control := rfl
@[simp] theorem emit_events (os : List Output) : (emit os s).events = s.events := rfl
@[simp] theorem emit_orderWalker (os : List Output) : (emit os s).orderWalker = s.orderWalker := rfl
@[simp] theorem emit_noteWalker (os : List Output) : (emit os s).noteWalker = s.noteWalker := rfl
@[simp] theorem emit_blankWalkers (os : List Output) : (emit os s).blankWalkers = s.blankWalkers := rfl
@[simp] theorem emit_pen (os : List Output) : (emit os s).pen = s.pen := rfl
@[simp] theorem emit_contexts (os : List Output) : (emit os s).contexts = s.contexts := rfl
@[simp] theorem emit_solveQueue (os : List Output) : (emit os s).solveQueue = s.solveQueue := rfl
@[simp] theorem emit_solve (os : List Output) : (emit os s).solve = s.solve := rfl
@[simp] theorem emit_steering (os : List Output) : (emit os s).steering = s.steering := rfl
@[simp] theorem emit_arbiter (os : List Output) : (emit os s).arbiter = s.arbiter := rfl
@[simp] theorem emit_combine (os : List Output) : (emit os s).combine = s.combine := rfl
@[simp] theorem emit_lanes (os : List Output) : (emit os s).lanes = s.lanes := rfl
@[simp] theorem emit_finishedTail (os : List Output) : (emit os s).finishedTail = s.finishedTail := rfl
@[simp] theorem emit_msiInput (os : List Output) : (emit os s).msiInput = s.msiInput := rfl
@[simp] theorem emit_out (os : List Output) : (emit os s).out = s.out ++ os := rfl
@[simp] theorem emit_now (os : List Output) : (emit os s).now = s.now := rfl
@[simp] theorem emit_pending (os : List Output) : (emit os s).pending = s.pending := rfl

/-! ## `reachTime` -/

@[simp] theorem reachTime_control (u : Nat) : (reachTime u s).control = s.control := rfl
@[simp] theorem reachTime_events (u : Nat) : (reachTime u s).events = s.events := rfl
@[simp] theorem reachTime_orderWalker (u : Nat) : (reachTime u s).orderWalker = s.orderWalker := rfl
@[simp] theorem reachTime_noteWalker (u : Nat) : (reachTime u s).noteWalker = s.noteWalker := rfl
@[simp] theorem reachTime_blankWalkers (u : Nat) : (reachTime u s).blankWalkers = s.blankWalkers := rfl
@[simp] theorem reachTime_pen (u : Nat) : (reachTime u s).pen = s.pen := rfl
@[simp] theorem reachTime_contexts (u : Nat) : (reachTime u s).contexts = s.contexts := rfl
@[simp] theorem reachTime_solveQueue (u : Nat) : (reachTime u s).solveQueue = s.solveQueue := rfl
@[simp] theorem reachTime_solve (u : Nat) : (reachTime u s).solve = s.solve := rfl
@[simp] theorem reachTime_steering (u : Nat) : (reachTime u s).steering = s.steering := rfl
@[simp] theorem reachTime_arbiter (u : Nat) : (reachTime u s).arbiter = s.arbiter := rfl
@[simp] theorem reachTime_combine (u : Nat) : (reachTime u s).combine = s.combine := rfl
@[simp] theorem reachTime_lanes (u : Nat) : (reachTime u s).lanes = s.lanes := rfl
@[simp] theorem reachTime_finishedTail (u : Nat) : (reachTime u s).finishedTail = s.finishedTail := rfl
@[simp] theorem reachTime_msiInput (u : Nat) : (reachTime u s).msiInput = s.msiInput := rfl
@[simp] theorem reachTime_out (u : Nat) : (reachTime u s).out = s.out := rfl
@[simp] theorem reachTime_now (u : Nat) : (reachTime u s).now = max s.now u := rfl
@[simp] theorem reachTime_pending (u : Nat) : (reachTime u s).pending = s.pending := rfl

/-! ## `setContext` -/

@[simp] theorem setContext_control (c : CtxId) (x : Option Context) :
    (setContext c x s).control =
      s.control := rfl
@[simp] theorem setContext_events (c : CtxId) (x : Option Context) :
    (setContext c x s).events =
      s.events := rfl
@[simp] theorem setContext_orderWalker (c : CtxId) (x : Option Context) :
    (setContext c x s).orderWalker =
      s.orderWalker := rfl
@[simp] theorem setContext_noteWalker (c : CtxId) (x : Option Context) :
    (setContext c x s).noteWalker =
      s.noteWalker := rfl
@[simp] theorem setContext_blankWalkers (c : CtxId) (x : Option Context) :
    (setContext c x s).blankWalkers =
      s.blankWalkers := rfl
@[simp] theorem setContext_pen (c : CtxId) (x : Option Context) : (setContext c x s).pen = s.pen := rfl
@[simp] theorem setContext_contexts (c : CtxId) (x : Option Context) :
    (setContext c x s).contexts =
      s.contexts.set c x := rfl
@[simp] theorem setContext_solveQueue (c : CtxId) (x : Option Context) :
    (setContext c x s).solveQueue =
      s.solveQueue := rfl
@[simp] theorem setContext_solve (c : CtxId) (x : Option Context) : (setContext c x s).solve = s.solve := rfl
@[simp] theorem setContext_steering (c : CtxId) (x : Option Context) :
    (setContext c x s).steering =
      s.steering := rfl
@[simp] theorem setContext_arbiter (c : CtxId) (x : Option Context) :
    (setContext c x s).arbiter =
      s.arbiter := rfl
@[simp] theorem setContext_combine (c : CtxId) (x : Option Context) :
    (setContext c x s).combine =
      s.combine := rfl
@[simp] theorem setContext_lanes (c : CtxId) (x : Option Context) : (setContext c x s).lanes = s.lanes := rfl
@[simp] theorem setContext_finishedTail (c : CtxId) (x : Option Context) :
    (setContext c x s).finishedTail =
      s.finishedTail := rfl
@[simp] theorem setContext_msiInput (c : CtxId) (x : Option Context) :
    (setContext c x s).msiInput =
      s.msiInput := rfl
@[simp] theorem setContext_out (c : CtxId) (x : Option Context) : (setContext c x s).out = s.out := rfl
@[simp] theorem setContext_now (c : CtxId) (x : Option Context) : (setContext c x s).now = s.now := rfl
@[simp] theorem setContext_pending (c : CtxId) (x : Option Context) :
    (setContext c x s).pending =
      s.pending := rfl

/-! ## `setLane` -/

@[simp] theorem setLane_control (p : LaneId) (x : Lane) : (setLane p x s).control = s.control := rfl
@[simp] theorem setLane_events (p : LaneId) (x : Lane) : (setLane p x s).events = s.events := rfl
@[simp] theorem setLane_orderWalker (p : LaneId) (x : Lane) :
    (setLane p x s).orderWalker =
      s.orderWalker := rfl
@[simp] theorem setLane_noteWalker (p : LaneId) (x : Lane) : (setLane p x s).noteWalker = s.noteWalker := rfl
@[simp] theorem setLane_blankWalkers (p : LaneId) (x : Lane) :
    (setLane p x s).blankWalkers =
      s.blankWalkers := rfl
@[simp] theorem setLane_pen (p : LaneId) (x : Lane) : (setLane p x s).pen = s.pen := rfl
@[simp] theorem setLane_contexts (p : LaneId) (x : Lane) : (setLane p x s).contexts = s.contexts := rfl
@[simp] theorem setLane_solveQueue (p : LaneId) (x : Lane) : (setLane p x s).solveQueue = s.solveQueue := rfl
@[simp] theorem setLane_solve (p : LaneId) (x : Lane) : (setLane p x s).solve = s.solve := rfl
@[simp] theorem setLane_steering (p : LaneId) (x : Lane) : (setLane p x s).steering = s.steering := rfl
@[simp] theorem setLane_arbiter (p : LaneId) (x : Lane) : (setLane p x s).arbiter = s.arbiter := rfl
@[simp] theorem setLane_combine (p : LaneId) (x : Lane) : (setLane p x s).combine = s.combine := rfl
@[simp] theorem setLane_lanes (p : LaneId) (x : Lane) : (setLane p x s).lanes = s.lanes.set p x := rfl
@[simp] theorem setLane_finishedTail (p : LaneId) (x : Lane) :
    (setLane p x s).finishedTail =
      s.finishedTail := rfl
@[simp] theorem setLane_msiInput (p : LaneId) (x : Lane) : (setLane p x s).msiInput = s.msiInput := rfl
@[simp] theorem setLane_out (p : LaneId) (x : Lane) : (setLane p x s).out = s.out := rfl
@[simp] theorem setLane_now (p : LaneId) (x : Lane) : (setLane p x s).now = s.now := rfl
@[simp] theorem setLane_pending (p : LaneId) (x : Lane) : (setLane p x s).pending = s.pending := rfl

/-! ## `dequeueSolve` -/

@[simp] theorem dequeueSolve_control (c : CtxId) : (dequeueSolve c s).control = s.control := rfl
@[simp] theorem dequeueSolve_events (c : CtxId) : (dequeueSolve c s).events = s.events := rfl
@[simp] theorem dequeueSolve_orderWalker (c : CtxId) : (dequeueSolve c s).orderWalker = s.orderWalker := rfl
@[simp] theorem dequeueSolve_noteWalker (c : CtxId) : (dequeueSolve c s).noteWalker = s.noteWalker := rfl
@[simp] theorem dequeueSolve_blankWalkers (c : CtxId) :
    (dequeueSolve c s).blankWalkers =
      s.blankWalkers := rfl
@[simp] theorem dequeueSolve_pen (c : CtxId) : (dequeueSolve c s).pen = s.pen := rfl
@[simp] theorem dequeueSolve_contexts (c : CtxId) : (dequeueSolve c s).contexts = s.contexts := rfl
@[simp] theorem dequeueSolve_solveQueue (c : CtxId) :
    (dequeueSolve c s).solveQueue =
      s.solveQueue.erase c := rfl
@[simp] theorem dequeueSolve_solve (c : CtxId) : (dequeueSolve c s).solve = s.solve := rfl
@[simp] theorem dequeueSolve_steering (c : CtxId) : (dequeueSolve c s).steering = s.steering := rfl
@[simp] theorem dequeueSolve_arbiter (c : CtxId) : (dequeueSolve c s).arbiter = s.arbiter := rfl
@[simp] theorem dequeueSolve_combine (c : CtxId) : (dequeueSolve c s).combine = s.combine := rfl
@[simp] theorem dequeueSolve_lanes (c : CtxId) : (dequeueSolve c s).lanes = s.lanes := rfl
@[simp] theorem dequeueSolve_finishedTail (c : CtxId) :
    (dequeueSolve c s).finishedTail =
      s.finishedTail := rfl
@[simp] theorem dequeueSolve_msiInput (c : CtxId) : (dequeueSolve c s).msiInput = s.msiInput := rfl
@[simp] theorem dequeueSolve_out (c : CtxId) : (dequeueSolve c s).out = s.out := rfl
@[simp] theorem dequeueSolve_now (c : CtxId) : (dequeueSolve c s).now = s.now := rfl
@[simp] theorem dequeueSolve_pending (c : CtxId) : (dequeueSolve c s).pending = s.pending := rfl

/-! ## `unready` -/

@[simp] theorem unready_control (c : CtxId) : (unready c s).control = s.control := rfl
@[simp] theorem unready_events (c : CtxId) : (unready c s).events = s.events := rfl
@[simp] theorem unready_orderWalker (c : CtxId) : (unready c s).orderWalker = s.orderWalker := rfl
@[simp] theorem unready_noteWalker (c : CtxId) : (unready c s).noteWalker = s.noteWalker := rfl
@[simp] theorem unready_blankWalkers (c : CtxId) : (unready c s).blankWalkers = s.blankWalkers := rfl
@[simp] theorem unready_pen (c : CtxId) : (unready c s).pen = s.pen := rfl
@[simp] theorem unready_contexts (c : CtxId) : (unready c s).contexts = s.contexts := rfl
@[simp] theorem unready_solveQueue (c : CtxId) : (unready c s).solveQueue = s.solveQueue := rfl
@[simp] theorem unready_solve (c : CtxId) : (unready c s).solve = s.solve := rfl
@[simp] theorem unready_steering (c : CtxId) : (unready c s).steering = s.steering := rfl
@[simp] theorem unready_arbiter (c : CtxId) :
    (unready c s).arbiter =
      { s.arbiter with ready := s.arbiter.ready.map fun l => l.erase c } := rfl
@[simp] theorem unready_combine (c : CtxId) : (unready c s).combine = s.combine := rfl
@[simp] theorem unready_lanes (c : CtxId) : (unready c s).lanes = s.lanes := rfl
@[simp] theorem unready_finishedTail (c : CtxId) : (unready c s).finishedTail = s.finishedTail := rfl
@[simp] theorem unready_msiInput (c : CtxId) : (unready c s).msiInput = s.msiInput := rfl
@[simp] theorem unready_out (c : CtxId) : (unready c s).out = s.out := rfl
@[simp] theorem unready_now (c : CtxId) : (unready c s).now = s.now := rfl
@[simp] theorem unready_pending (c : CtxId) : (unready c s).pending = s.pending := rfl

/-! ## `makeReady` -/

@[simp] theorem makeReady_control (c : CtxId) (u : Nat) : (makeReady c u s).control = s.control := rfl
@[simp] theorem makeReady_events (c : CtxId) (u : Nat) : (makeReady c u s).events = s.events := rfl
@[simp] theorem makeReady_orderWalker (c : CtxId) (u : Nat) :
    (makeReady c u s).orderWalker =
      s.orderWalker := rfl
@[simp] theorem makeReady_noteWalker (c : CtxId) (u : Nat) :
    (makeReady c u s).noteWalker =
      s.noteWalker := rfl
@[simp] theorem makeReady_blankWalkers (c : CtxId) (u : Nat) :
    (makeReady c u s).blankWalkers =
      s.blankWalkers := rfl
@[simp] theorem makeReady_pen (c : CtxId) (u : Nat) : (makeReady c u s).pen = s.pen := rfl
@[simp] theorem makeReady_contexts (c : CtxId) (u : Nat) : (makeReady c u s).contexts = s.contexts := rfl
@[simp] theorem makeReady_solveQueue (c : CtxId) (u : Nat) :
    (makeReady c u s).solveQueue =
      s.solveQueue := rfl
@[simp] theorem makeReady_solve (c : CtxId) (u : Nat) : (makeReady c u s).solve = s.solve := rfl
@[simp] theorem makeReady_steering (c : CtxId) (u : Nat) : (makeReady c u s).steering = s.steering := rfl
@[simp] theorem makeReady_arbiter (c : CtxId) (u : Nat) :
    (makeReady c u s).arbiter =
      { s.arbiter with ready := s.arbiter.ready.set (classIndex u) (s.arbiter.ready[classIndex u] ++ [c]) } := rfl
@[simp] theorem makeReady_combine (c : CtxId) (u : Nat) : (makeReady c u s).combine = s.combine := rfl
@[simp] theorem makeReady_lanes (c : CtxId) (u : Nat) : (makeReady c u s).lanes = s.lanes := rfl
@[simp] theorem makeReady_finishedTail (c : CtxId) (u : Nat) :
    (makeReady c u s).finishedTail =
      s.finishedTail := rfl
@[simp] theorem makeReady_msiInput (c : CtxId) (u : Nat) : (makeReady c u s).msiInput = s.msiInput := rfl
@[simp] theorem makeReady_out (c : CtxId) (u : Nat) : (makeReady c u s).out = s.out := rfl
@[simp] theorem makeReady_now (c : CtxId) (u : Nat) : (makeReady c u s).now = s.now := rfl
@[simp] theorem makeReady_pending (c : CtxId) (u : Nat) : (makeReady c u s).pending = s.pending := rfl

/-! ## `ungrant` -/

@[simp] theorem ungrant_control : (ungrant s).control = s.control := rfl
@[simp] theorem ungrant_events : (ungrant s).events = s.events := rfl
@[simp] theorem ungrant_orderWalker : (ungrant s).orderWalker = s.orderWalker := rfl
@[simp] theorem ungrant_noteWalker : (ungrant s).noteWalker = s.noteWalker := rfl
@[simp] theorem ungrant_blankWalkers : (ungrant s).blankWalkers = s.blankWalkers := rfl
@[simp] theorem ungrant_pen : (ungrant s).pen = s.pen := rfl
@[simp] theorem ungrant_contexts : (ungrant s).contexts = s.contexts := rfl
@[simp] theorem ungrant_solveQueue : (ungrant s).solveQueue = s.solveQueue := rfl
@[simp] theorem ungrant_solve : (ungrant s).solve = s.solve := rfl
@[simp] theorem ungrant_steering : (ungrant s).steering = s.steering := rfl
@[simp] theorem ungrant_arbiter : (ungrant s).arbiter = { s.arbiter with grantee := none } := rfl
@[simp] theorem ungrant_combine : (ungrant s).combine = s.combine := rfl
@[simp] theorem ungrant_lanes : (ungrant s).lanes = s.lanes := rfl
@[simp] theorem ungrant_finishedTail : (ungrant s).finishedTail = s.finishedTail := rfl
@[simp] theorem ungrant_msiInput : (ungrant s).msiInput = s.msiInput := rfl
@[simp] theorem ungrant_out : (ungrant s).out = s.out := rfl
@[simp] theorem ungrant_now : (ungrant s).now = s.now := rfl
@[simp] theorem ungrant_pending : (ungrant s).pending = s.pending := rfl

/-! ## `idleWalkers` -/

@[simp] theorem idleWalkers_control : (idleWalkers s).control = s.control := rfl
@[simp] theorem idleWalkers_events : (idleWalkers s).events = s.events := rfl
@[simp] theorem idleWalkers_orderWalker : (idleWalkers s).orderWalker = Walker.rest := rfl
@[simp] theorem idleWalkers_noteWalker : (idleWalkers s).noteWalker = Walker.rest := rfl
@[simp] theorem idleWalkers_blankWalkers :
    (idleWalkers s).blankWalkers =
      Vector.replicate 32 Walker.rest := rfl
@[simp] theorem idleWalkers_pen : (idleWalkers s).pen = s.pen := rfl
@[simp] theorem idleWalkers_contexts : (idleWalkers s).contexts = s.contexts := rfl
@[simp] theorem idleWalkers_solveQueue : (idleWalkers s).solveQueue = s.solveQueue := rfl
@[simp] theorem idleWalkers_solve : (idleWalkers s).solve = s.solve := rfl
@[simp] theorem idleWalkers_steering : (idleWalkers s).steering = s.steering := rfl
@[simp] theorem idleWalkers_arbiter : (idleWalkers s).arbiter = s.arbiter := rfl
@[simp] theorem idleWalkers_combine : (idleWalkers s).combine = s.combine := rfl
@[simp] theorem idleWalkers_lanes : (idleWalkers s).lanes = s.lanes := rfl
@[simp] theorem idleWalkers_finishedTail : (idleWalkers s).finishedTail = s.finishedTail := rfl
@[simp] theorem idleWalkers_msiInput : (idleWalkers s).msiInput = s.msiInput := rfl
@[simp] theorem idleWalkers_out : (idleWalkers s).out = s.out := rfl
@[simp] theorem idleWalkers_now : (idleWalkers s).now = s.now := rfl
@[simp] theorem idleWalkers_pending : (idleWalkers s).pending = s.pending := rfl

/-! ## `tick` -/

@[simp] theorem tick_control : (tick s).control = s.control := rfl
@[simp] theorem tick_events : (tick s).events = s.events := rfl
@[simp] theorem tick_orderWalker : (tick s).orderWalker = s.orderWalker := rfl
@[simp] theorem tick_noteWalker : (tick s).noteWalker = s.noteWalker := rfl
@[simp] theorem tick_blankWalkers : (tick s).blankWalkers = s.blankWalkers := rfl
@[simp] theorem tick_pen : (tick s).pen = s.pen := rfl
@[simp] theorem tick_contexts : (tick s).contexts = s.contexts := rfl
@[simp] theorem tick_solveQueue : (tick s).solveQueue = s.solveQueue := rfl
@[simp] theorem tick_solve : (tick s).solve = s.solve := rfl
@[simp] theorem tick_steering : (tick s).steering = s.steering := rfl
@[simp] theorem tick_arbiter : (tick s).arbiter = s.arbiter := rfl
@[simp] theorem tick_combine : (tick s).combine = s.combine := rfl
@[simp] theorem tick_lanes : (tick s).lanes = s.lanes := rfl
@[simp] theorem tick_finishedTail : (tick s).finishedTail = s.finishedTail := rfl
@[simp] theorem tick_msiInput : (tick s).msiInput = s.msiInput := rfl
@[simp] theorem tick_out : (tick s).out = s.out := rfl
@[simp] theorem tick_now : (tick s).now = s.now + 1 := rfl
@[simp] theorem tick_pending : (tick s).pending = s.pending := rfl

/-! ## `setWalker` -/

@[simp] theorem setWalker_control (w : WalkerId) (x : Walker) : (setWalker w x s).control = s.control := by
  cases w <;> rfl
@[simp] theorem setWalker_events (w : WalkerId) (x : Walker) : (setWalker w x s).events = s.events := by
  cases w <;> rfl
@[simp] theorem setWalker_pen (w : WalkerId) (x : Walker) : (setWalker w x s).pen = s.pen := by
  cases w <;> rfl
@[simp] theorem setWalker_contexts (w : WalkerId) (x : Walker) : (setWalker w x s).contexts = s.contexts := by
  cases w <;> rfl
@[simp] theorem setWalker_solveQueue (w : WalkerId) (x : Walker) : (setWalker w x s).solveQueue = s.solveQueue := by
  cases w <;> rfl
@[simp] theorem setWalker_solve (w : WalkerId) (x : Walker) : (setWalker w x s).solve = s.solve := by
  cases w <;> rfl
@[simp] theorem setWalker_steering (w : WalkerId) (x : Walker) : (setWalker w x s).steering = s.steering := by
  cases w <;> rfl
@[simp] theorem setWalker_arbiter (w : WalkerId) (x : Walker) : (setWalker w x s).arbiter = s.arbiter := by
  cases w <;> rfl
@[simp] theorem setWalker_combine (w : WalkerId) (x : Walker) : (setWalker w x s).combine = s.combine := by
  cases w <;> rfl
@[simp] theorem setWalker_lanes (w : WalkerId) (x : Walker) : (setWalker w x s).lanes = s.lanes := by
  cases w <;> rfl
@[simp] theorem setWalker_finishedTail (w : WalkerId) (x : Walker) : (setWalker w x s).finishedTail = s.finishedTail := by
  cases w <;> rfl
@[simp] theorem setWalker_msiInput (w : WalkerId) (x : Walker) : (setWalker w x s).msiInput = s.msiInput := by
  cases w <;> rfl
@[simp] theorem setWalker_out (w : WalkerId) (x : Walker) : (setWalker w x s).out = s.out := by
  cases w <;> rfl
@[simp] theorem setWalker_now (w : WalkerId) (x : Walker) : (setWalker w x s).now = s.now := by
  cases w <;> rfl
@[simp] theorem setWalker_pending (w : WalkerId) (x : Walker) : (setWalker w x s).pending = s.pending := by
  cases w <;> rfl

@[simp] theorem setWalker_same (w : WalkerId) (x : Walker) : (setWalker w x s).walker w = x := by
  cases w <;> simp [setWalker, State.walker]

theorem setWalker_other (w v : WalkerId) (x : Walker) (h : v ≠ w) :
    (setWalker w x s).walker v = s.walker v := by
  cases w <;> cases v <;> simp_all [setWalker, State.walker]
  rename_i p q
  exact Vector.getElem_set_ne _ _ (fun e => h (Fin.ext e.symm))

/-! ## The tables, entry by entry -/

@[simp] theorem setContext_same (c : CtxId) (x : Option Context) : (setContext c x s).contexts[c] = x := by
  simp [setContext]

theorem setContext_other (c d : CtxId) (x : Option Context) (h : d ≠ c) :
    (setContext c x s).contexts[d] = s.contexts[d] := by
  simp only [setContext]
  exact Vector.getElem_set_ne _ _ (fun e => h (Fin.ext e.symm))

@[simp] theorem setLane_same (p : LaneId) (x : Lane) : (setLane p x s).lanes[p] = x := by
  simp [setLane]

theorem setLane_other (p q : LaneId) (x : Lane) (h : q ≠ p) : (setLane p x s).lanes[q] = s.lanes[q] := by
  simp only [setLane]
  exact Vector.getElem_set_ne _ _ (fun e => h (Fin.ext e.symm))

end Sys2Proof.Machine
end

