-- ==== Sys2Proof/Laws/Ops.lean ====
section
/-! SUPPORT. What each shared operation can do, said once: later proofs cite these and do not unfold the operation. -/

namespace Sys2Proof.Machine

variable (s : State)

/-! ## Effects in order -/

@[simp] theorem inOrder_nil : inOrder [] s = s := rfl

/-- The first effect is made unless the engine is HALTED; then the others. -/
theorem inOrder_cons (f : State → State) (fs : List (State → State)) :
    inOrder (f :: fs) s = inOrder fs (if s.halted then s else f s) := rfl

/-- In a halted engine no effect is made. -/
theorem inOrder_halted (fs : List (State → State)) (h : s.halted = true) : inOrder fs s = s := by
  induction fs with
  | nil => rfl
  | cons f fs ih => rw [inOrder_cons, if_pos h, ih]

/-- In an engine that is not halted the first effect is made. -/
theorem inOrder_step (f : State → State) (fs : List (State → State)) (h : s.halted = false) :
    inOrder (f :: fs) s = inOrder fs (f s) := by
  rw [inOrder_cons, if_neg (by simp [h])]

/-- What every effect keeps, the event keeps. -/
theorem inOrder_keeps {P : State → Prop} {fs : List (State → State)} {s : State}
    (h : ∀ f ∈ fs, ∀ t, P t → P (f t)) (h0 : P s) : P (inOrder fs s) := by
  induction fs generalizing s with
  | nil => exact h0
  | cons f fs ih =>
    rw [inOrder_cons]
    refine ih (fun g hg => h g (List.mem_cons_of_mem _ hg)) ?_
    split
    · exact h0
    · exact h f List.mem_cons_self s h0

/-! ## Events -/

/-- A raised bit is set, no other bit changes, and a bit already set changes nothing (R165). -/
theorem raise_bits (b : EventBit) : (raise b s).events.bits = s.events.bits ||| b.mask := by
  unfold raise
  split
  · rename_i h
    ext i hi
    cases b <;> simp only [EventBit.index] at h <;> interval_cases i <;>
      simp_all [EventBit.mask, EventBit.index]
  · dsimp only
    split <;> (try unfold announce) <;> (try split) <;> simp [startHoldoff, sendMessage] <;> split <;> rfl

/-- Raising a bit writes the event unit and sends at most one message, and does nothing else (R165, R166). -/
theorem raise_spec (b : EventBit) :
    ∃ ev, raise b s = { s with events := ev } ∨ raise b s = { s with events := ev, out := s.out ++ [.msi] } := by
  unfold raise
  split
  · exact ⟨s.events, .inl rfl⟩
  · dsimp only
    split
    · unfold announce
      split
      · unfold sendMessage
        split
        · exact ⟨_, .inr rfl⟩
        · exact ⟨_, .inl rfl⟩
      · exact ⟨_, .inl rfl⟩
    · exact ⟨_, .inl rfl⟩

/-- A bit already set changes nothing (R165). -/
theorem raise_set (b : EventBit) (h : s.events.bits.getLsbD b.index = true) : raise b s = s := by
  rw [raise, if_pos h]

/-- While the interrupt enable is clear, raising a bit only sets it (R166). -/
theorem raise_quiet (b : EventBit) (h : s.events.interruptEnable = false) :
    raise b s = { s with events := { s.events with bits := s.events.bits ||| b.mask } } := by
  unfold raise
  split
  · rename_i hb
    have e := raise_bits s b
    rw [raise_set s b hb] at e
    rw [← e]
  · simp [h]

/-! ## Halt -/

/-- A second halt cause has no effect (R162). -/
theorem halt_halted (c : Cause) (h : s.halted = true) : halt c s = s := by rw [halt, if_pos h]

/-- After a halt the engine is HALTED. -/
theorem halt_engine (c : Cause) : (halt c s).control.engine = .halted := by
  unfold halt
  split
  · rename_i h
    simpa [State.halted] using h
  · dsimp only
    obtain ⟨ev, h | h⟩ := raise_spec
      { idleWalkers s with control := { (idleWalkers s).control with
          engine := .halted, cause := c, reloadAt := none, idleDeadline := none, idleElapsed := false } }
      .engineStopped
    · rw [h]
    · rw [h]

/-! ## Host-memory writes -/

/-- A write is issued where the fences permit it, and else halts with its cause (R163). -/
theorem writeHost_spec (c : Cause) (a : Nat) (bytes : List Byte) :
    writePermitted s a bytes.length = true ∧ writeHost c a bytes s = emit (writeRequests a bytes) s ∨
      writePermitted s a bytes.length = false ∧ writeHost c a bytes s = halt c s := by
  unfold writeHost
  cases writePermitted s a bytes.length
  · exact .inr ⟨rfl, rfl⟩
  · exact .inl ⟨rfl, rfl⟩

theorem writeHost_permitted (c : Cause) (a : Nat) (bytes : List Byte)
    (h : writePermitted s a bytes.length = true) : writeHost c a bytes s = emit (writeRequests a bytes) s := by
  rw [writeHost, if_pos h]

theorem writeHost_refused (c : Cause) (a : Nat) (bytes : List Byte)
    (h : writePermitted s a bytes.length = false) : writeHost c a bytes s = halt c s := by
  rw [writeHost, if_neg (by simp [h])]

@[simp] theorem leBytes_length (n v : Nat) : (leBytes n v).length = n := by
  induction n generalizing v with
  | zero => rfl
  | succ n ih => simp [leBytes, ih]

/-- A field write is one request wherever the field does not cross a 4 KiB boundary (R169, R171). -/
theorem splitRequest_inside (a : Nat) (len : Nat) (h0 : 0 < len) (h : a % 4096 + len ≤ 4096) :
    splitRequest a len = [(a, len)] := by
  unfold splitRequest
  have e : min len (4096 - a % 4096) = len := Nat.min_eq_left (by omega)
  simp [splitFrom, e, Nat.ne_of_gt h0]

/-- Inside the address space a request goes out with the address computed (R171). -/
theorem requestAddress_inside (a : Nat) (h : a < 2 ^ 64) : requestAddress a = a := by
  rw [requestAddress, Config.addressSpace, if_pos h]

/-- A request keeps its place within its page (log 18). -/
theorem requestAddress_page (a : Nat) : requestAddress a % 4096 = a % 4096 := by
  unfold requestAddress Config.addressSpace
  split <;> omega

/-- A request's address is 64 bits wide (R171). -/
theorem requestAddress_lt (a : Nat) : requestAddress a < 2 ^ 64 := by
  unfold requestAddress Config.addressSpace
  split
  · assumption
  · have h := (Config.pagePastTop (a / 4096)).isLt
    omega

/-! ## Walkers -/

/-- A revisit of a walker with a cursor: REVISITING, its deadline stopped, one 8-byte read (R24, R25, R27). -/
theorem issueRevisit_of_link (w : WalkerId) (a : Nat) (h : heldLinkAddr s w = some a) :
    issueRevisit w s = issueRead a 8 (setWalker w
      { s.walker w with state := .revisiting, deadline := none, wakePending := false
                        readAt := some s.now } s) := by
  rw [issueRevisit, h]

/-- The engine returns from DOZING, or the idle deadline restarts (R160). -/
theorem recordTaken_running (h : s.control.engine ≠ .dozing) : recordTaken s = startIdle s := by
  rw [recordTaken, if_neg h]

/-- Where a condition of the entry to DOZING fails, nothing happens (R160). -/
theorem enterDoze_not_ready (h : dozeReady s = false) : enterDoze s = s := by
  rw [enterDoze, h]
  rfl

/-- The entry to DOZING touches the control unit and the walkers alone, and issues nothing (R160). -/
theorem enterDoze_frame : ∃ c o n b,
    enterDoze s = { s with control := c, orderWalker := o, noteWalker := n, blankWalkers := b } := by
  unfold enterDoze
  split
  · exact ⟨_, _, _, _, rfl⟩
  · exact ⟨s.control, s.orderWalker, s.noteWalker, s.blankWalkers, rfl⟩

/-- A walker's leave touches the walkers and the reads issued alone (R23). -/
theorem takeLeave_frame (w : WalkerId) : ∃ o n b os,
    takeLeave w s = { s with orderWalker := o, noteWalker := n, blankWalkers := b, out := s.out ++ os } := by
  have same : ∃ o n b os, s = { s with orderWalker := o, noteWalker := n, blankWalkers := b, out := s.out ++ os } :=
    ⟨s.orderWalker, s.noteWalker, s.blankWalkers, [], by simp⟩
  unfold takeLeave
  split
  · split
    · exact same
    · cases w <;> exact ⟨_, _, _, _, rfl⟩
  · exact same

/-- Leave touches the walkers and the reads issued alone (R23). -/
theorem giveLeave_frame : ∃ o n b os,
    giveLeave s = { s with orderWalker := o, noteWalker := n, blankWalkers := b, out := s.out ++ os } := by
  have fold : ∀ (ws : List WalkerId) (s : State), ∃ o n b os, ws.foldl (fun t w => takeLeave w t) s =
      { s with orderWalker := o, noteWalker := n, blankWalkers := b, out := s.out ++ os } := by
    intro ws
    induction ws with
    | nil => exact fun s => ⟨s.orderWalker, s.noteWalker, s.blankWalkers, [], by simp⟩
    | cons w ws ih =>
      intro s
      obtain ⟨_, _, _, os, e⟩ := takeLeave_frame (s := s) w
      obtain ⟨o, n, b, os', e'⟩ := ih (takeLeave w s)
      exact ⟨o, n, b, os ++ os', by rw [List.foldl_cons, e', e]; simp⟩
  unfold giveLeave
  split
  · exact fold _ s
  · exact ⟨s.orderWalker, s.noteWalker, s.blankWalkers, [], by simp⟩

/-- Outside RUNNING and DOZING no walker has leave (R23, R153). -/
theorem giveLeave_not_walking (h : s.walking = false) : giveLeave s = s := by
  rw [giveLeave, h]
  rfl

/-! ## Contexts -/

theorem modifyContext_some (c : CtxId) (f : Context → Context) (x : Context) (h : s.contexts[c] = some x) :
    modifyContext c f s = setContext c (some (f x)) s := by
  rw [modifyContext, h]

theorem modifyContext_none (c : CtxId) (f : Context → Context) (h : s.contexts[c] = none) :
    modifyContext c f s = s := by
  rw [modifyContext, h]

/-- A context stands on the solve queue afterwards, or its solve is in flight (R101). -/
theorem enqueueSolve_mem (c : CtxId) :
    c ∈ (enqueueSolve c s).solveQueue ∨ s.solve.map Solve.ctx = some c := by
  unfold enqueueSolve
  split
  · rename_i h
    simp only [Bool.or_eq_true, List.contains_iff_mem, beq_iff_eq] at h
    exact h
  · simp

/-- The solve queue never holds a context twice (R101). -/
theorem enqueueSolve_nodup (c : CtxId) (h : s.solveQueue.Nodup) : (enqueueSolve c s).solveQueue.Nodup := by
  unfold enqueueSolve
  split
  · exact h
  · rename_i hc
    simp only [Bool.or_eq_true, List.contains_iff_mem, not_or] at hc
    simp [List.nodup_append, h]
    exact fun a ha e => hc.1 (e ▸ ha)

/-- A context alone on the queue is the one taken (R102). -/
@[simp] theorem mostUrgentOf_singleton (c : CtxId) : mostUrgentOf s [c] = some c := rfl

/-- A busy solver begins nothing (R102). -/
theorem beginNext_busy (h : s.solve.isSome = true) : beginNext s = s := by rw [beginNext, if_pos h]

/-- With nothing queued no solve begins (R102). -/
theorem beginNext_empty (h : s.solveQueue = []) : beginNext s = s := by
  unfold beginNext
  rw [h]
  split <;> rfl

/-- An idle solver with nothing queued begins at once with the context that enters (R101, R102). -/
theorem enterQueue_idle (c : CtxId) (x : Context) (hs : s.solve = none) (hq : s.solveQueue = [])
    (hx : s.contexts[c] = some x) : enterQueue c s = { s with solve := some (solveFor c x) } := by
  have e : enqueueSolve c s = { s with solveQueue := [c] } := by simp [enqueueSolve, hs, hq]
  simp [enterQueue, beginNext, e, hs, hq, beginSolve, hx, dequeueSolve]

/-- While a solve of another context is in flight, a context that enters waits at the back (R101, R102). -/
theorem enterQueue_busy (c : CtxId) (v : Solve) (hs : s.solve = some v) (hc : v.ctx ≠ c) (hq : c ∉ s.solveQueue) :
    enterQueue c s = { s with solveQueue := s.solveQueue ++ [c] } := by
  simp [enterQueue, enqueueSolve, beginNext, hs, hc, hq]

/-- A unit with a grantee grants nothing (R112). -/
theorem grantNext_granted (h : s.arbiter.grantee.isSome = true) : grantNext s = s := by rw [grantNext, if_pos h]

/-- With every list empty nothing is granted (R112). -/
theorem grantNext_empty (h : mostUrgentReady s = none) : grantNext s = s := by
  unfold grantNext
  rw [h]
  split <;> rfl

/-- An event that made no blank available calls for no retry (R136). -/
theorem retryWaiting_none (h : s.steering.retryDue = []) : retryWaiting s = s := by
  have e : waitersDue s = [] := by
    unfold waitersDue
    rw [h]
    refine List.filter_eq_nil_iff.2 fun c _ => ?_
    split <;> simp
  unfold retryWaiting
  rw [e]
  show { s with steering := { s.steering with retryDue := [] } } = s
  rw [← h]

/-- Entry to DRAINING does nothing to a context already there (R87). -/
theorem enterDraining_draining (c : CtxId) (o : OrderOutcome) (d : Detail) (x : Context)
    (h : s.contexts[c] = some x) (hd : x.state = .draining) : enterDraining c o d s = s := by
  rw [enterDraining, h]
  simp [hd]

/-- Entry to DRAINING records the outcome and the detail, stops both deadlines, and takes the context off the
solve queue, the ready lists and the wait list (R87). -/
theorem enterDraining_live (c : CtxId) (o : OrderOutcome) (d : Detail) (x : Context)
    (h : s.contexts[c] = some x) (hd : x.state ≠ .draining) :
    enterDraining c o d s =
      { s with
        contexts := s.contexts.set c (some { x with
          state := .draining, outcome := o, detail := d, settleDeadline := none
          stragglerDeadline := none, stragglerArmed := false })
        solveQueue := s.solveQueue.erase c
        arbiter := { s.arbiter with ready := s.arbiter.ready.map fun l => l.erase c }
        steering := { s.steering with waitList := s.steering.waitList.erase c } } := by
  rw [enterDraining, h]
  simp only [hd, if_false]
  rfl

end Sys2Proof.Machine
end

