-- ==== Sys2Proof/Laws/Frame.lean ====
section
/-! SUPPORT. The frame of the units' work: what no work on notes, orders, contexts, blanks, solves, steering passes and
combines changes, proved once for every shared operation. -/

namespace Sys2Proof.Machine

/-- What the control and event units alone write, and what only `step`, the host and the clock change. -/
def State.fixed (s : State) :=
  (s.control.anchor, s.control.generation, s.control.profiles, s.control.steering, s.control.timers,
    s.control.fences, s.control.fenceLock, s.control.startReadAt, s.events.interruptEnable, s.msiInput, s.now,
    s.pending)

/-- The engine and the walkers. -/
def State.run (s : State) :=
  (s.control.engine, s.control.cause, s.control.reloadAt, s.control.idleDeadline, s.control.idleElapsed,
    s.orderWalker, s.noteWalker, s.blankWalkers)

/-- Every walker is as `Walker.rest` says. -/
def State.walkersAtRest (s : State) : Prop :=
  s.orderWalker = Walker.rest ∧ s.noteWalker = Walker.rest ∧ s.blankWalkers = Vector.replicate 32 Walker.rest

/-- From `s` to `t` only the units' own state has changed: the control unit's loaded items, the clock and the queue
are the same, outputs were only added, and the engine and the walkers either stayed or the engine is HALTED with its
walkers IDLE. -/
structure UnitFrame (s t : State) : Prop where
  fixed : t.fixed = s.fixed
  grows : s.out <+: t.out
  run : t.run = s.run ∨ (t.control.engine = .halted ∧ t.walkersAtRest)

theorem UnitFrame.refl (s : State) : UnitFrame s s := ⟨rfl, List.prefix_refl _, .inl rfl⟩

theorem UnitFrame.trans {s t u : State} (a : UnitFrame s t) (b : UnitFrame t u) : UnitFrame s u where
  fixed := b.fixed.trans a.fixed
  grows := a.grows.trans b.grows
  run := by
    rcases b.run with hb | hb
    · rcases a.run with ha | ⟨ha, hw⟩
      · exact .inl (hb.trans ha)
      · simp only [State.run, Prod.mk.injEq] at hb
        exact .inr ⟨hb.1.trans ha, hb.2.2.2.2.2.1.trans hw.1, hb.2.2.2.2.2.2.1.trans hw.2.1,
          hb.2.2.2.2.2.2.2.trans hw.2.2⟩
    · exact .inr hb

/-- A change of the units' own fields alone. -/
theorem UnitFrame.of_same {s t : State} (h1 : t.fixed = s.fixed) (h2 : t.out = s.out) (h3 : t.run = s.run) :
    UnitFrame s t := ⟨h1, h2 ▸ List.prefix_refl _, .inl h3⟩

/-- Work on a state that differs in the units' own fields alone. -/
theorem UnitFrame.after {s t u : State} (b : UnitFrame t u) (h1 : t.fixed = s.fixed) (h2 : t.out = s.out)
    (h3 : t.run = s.run) : UnitFrame s u := (UnitFrame.of_same h1 h2 h3).trans b

theorem inOrder_frame {fs : List (State → State)} (h : ∀ f ∈ fs, ∀ t, UnitFrame t (f t)) (s : State) :
    UnitFrame s (inOrder fs s) :=
  inOrder_keeps (P := UnitFrame s) (fun f hf t ht => ht.trans (h f hf t)) (UnitFrame.refl s)

theorem foldl_frame {α : Type} {f : State → α → State} (h : ∀ t a, UnitFrame t (f t a)) (l : List α) (s : State) :
    UnitFrame s (l.foldl f s) := by
  induction l generalizing s with
  | nil => exact UnitFrame.refl s
  | cons a l ih => exact (h s a).trans (ih _)

/-! ## Events, halts, writes -/

theorem emit_frame (os : List Output) (s : State) : UnitFrame s (emit os s) :=
  ⟨rfl, List.prefix_append _ _, .inl rfl⟩

theorem raise_frame (b : EventBit) (s : State) : UnitFrame s (raise b s) := by
  unfold raise
  split
  · exact UnitFrame.refl s
  · dsimp only
    split
    · unfold announce
      split
      · unfold sendMessage
        split
        · exact ⟨rfl, List.prefix_append _ _, .inl rfl⟩
        · exact UnitFrame.of_same rfl rfl rfl
      · exact UnitFrame.of_same rfl rfl rfl
    · exact UnitFrame.of_same rfl rfl rfl

theorem halt_frame (c : Cause) (s : State) : UnitFrame s (halt c s) := by
  unfold halt
  split
  · exact UnitFrame.refl s
  · dsimp only
    obtain ⟨ev, h⟩ := raise_spec
      { idleWalkers s with control := { (idleWalkers s).control with
          engine := .halted, cause := c, reloadAt := none, idleDeadline := none, idleElapsed := false } }
      .engineStopped
    have hf := raise_frame .engineStopped
      { idleWalkers s with control := { (idleWalkers s).control with
          engine := .halted, cause := c, reloadAt := none, idleDeadline := none, idleElapsed := false } }
    refine ⟨hf.fixed.trans rfl, hf.grows, .inr ?_⟩
    rcases h with h | h <;> rw [h] <;> exact ⟨rfl, rfl, rfl, rfl⟩

theorem writeHost_frame (c : Cause) (a : Nat) (bytes : List Byte) (s : State) :
    UnitFrame s (writeHost c a bytes s) := by
  rcases writeHost_spec s c a bytes with ⟨_, h⟩ | ⟨_, h⟩ <;> rw [h]
  · exact emit_frame _ s
  · exact halt_frame c s

theorem writeField_frame (c : Cause) (a w v : Nat) (s : State) : UnitFrame s (writeField c a w v s) :=
  writeHost_frame _ _ _ s

theorem writeHoldLink_frame (c : Cause) (a : Nat) (s : State) : UnitFrame s (writeHoldLink c a s) :=
  writeHost_frame _ _ _ s

theorem writeLinkTo_frame (c : Cause) (a b : Nat) (s : State) : UnitFrame s (writeLinkTo c a b s) :=
  writeHost_frame _ _ _ s

/-! ## Contexts, queues and lists -/

theorem setContext_frame (c : CtxId) (x : Option Context) (s : State) : UnitFrame s (setContext c x s) :=
  UnitFrame.of_same rfl rfl rfl

theorem setLane_frame (p : LaneId) (x : Lane) (s : State) : UnitFrame s (setLane p x s) :=
  UnitFrame.of_same rfl rfl rfl

theorem modifyStock_frame (p : LaneId) (f : List StockEntry → List StockEntry) (s : State) :
    UnitFrame s (modifyStock p f s) := setLane_frame _ _ s

theorem modifyContext_frame (c : CtxId) (f : Context → Context) (s : State) :
    UnitFrame s (modifyContext c f s) := by
  unfold modifyContext
  split
  · exact UnitFrame.refl s
  · exact setContext_frame _ _ s

theorem modifyLost_frame (c : CtxId) (i : Nat) (f : LostEntry → LostEntry) (s : State) :
    UnitFrame s (modifyLost c i f s) := modifyContext_frame _ _ s

theorem enqueueSolve_frame (c : CtxId) (s : State) : UnitFrame s (enqueueSolve c s) := by
  unfold enqueueSolve
  split
  · exact UnitFrame.refl s
  · exact UnitFrame.of_same rfl rfl rfl

theorem beginSolve_frame (c : CtxId) (s : State) : UnitFrame s (beginSolve c s) := by
  unfold beginSolve
  split
  · exact UnitFrame.refl s
  · exact UnitFrame.of_same rfl rfl rfl

theorem beginNext_frame (s : State) : UnitFrame s (beginNext s) := by
  unfold beginNext
  split
  · exact UnitFrame.refl s
  · split
    · exact UnitFrame.refl s
    · exact beginSolve_frame _ s

theorem enterQueue_frame (c : CtxId) (s : State) : UnitFrame s (enterQueue c s) :=
  (enqueueSolve_frame c s).trans (beginNext_frame _)

theorem unready_frame (c : CtxId) (s : State) : UnitFrame s (unready c s) := UnitFrame.of_same rfl rfl rfl

theorem makeReady_frame (c : CtxId) (u : Nat) (s : State) : UnitFrame s (makeReady c u s) :=
  UnitFrame.of_same rfl rfl rfl

theorem moveClass_frame (c : CtxId) (u : Nat) (s : State) : UnitFrame s (moveClass c u s) := by
  unfold moveClass
  dsimp only
  split <;> split
  · exact UnitFrame.of_same rfl rfl rfl
  · exact UnitFrame.of_same rfl rfl rfl
  · exact UnitFrame.of_same rfl rfl rfl
  · exact UnitFrame.refl s

theorem blankAvailable_frame (p : LaneId) (s : State) : UnitFrame s (blankAvailable p s) := by
  unfold blankAvailable
  split
  · exact UnitFrame.refl s
  · exact UnitFrame.of_same rfl rfl rfl

/-! ## Chains, records, notes -/

theorem linkFinished_frame (order : Nat) (s : State) : UnitFrame s (linkFinished order s) := by
  apply inOrder_frame
  simp only [List.mem_cons, List.not_mem_nil, or_false, forall_eq_or_imp, forall_eq]
  refine ⟨fun t => ?_, fun t => UnitFrame.of_same rfl rfl rfl⟩
  split <;> exact writeLinkTo_frame _ _ _ t

theorem linkFilled_frame (p : LaneId) (record : Nat) (s : State) : UnitFrame s (linkFilled p record s) := by
  apply inOrder_frame
  simp only [List.mem_cons, List.not_mem_nil, or_false, forall_eq_or_imp, forall_eq]
  refine ⟨fun t => ?_, fun t => setLane_frame _ _ t, fun t => ?_⟩
  · split <;> exact writeLinkTo_frame _ _ _ t
  · split
    · exact raise_frame _ t
    · exact UnitFrame.refl t

theorem returnRecord_frame (p : LaneId) (record : Nat) (f : RecordFields) (s : State) :
    UnitFrame s (returnRecord p record f s) := by
  apply inOrder_frame
  simp only [List.mem_cons, List.not_mem_nil, or_false, forall_eq_or_imp, forall_eq]
  exact ⟨fun t => writeField_frame _ _ _ _ t, fun t => writeField_frame _ _ _ _ t,
    fun t => writeField_frame _ _ _ _ t, fun t => writeField_frame _ _ _ _ t,
    fun t => writeField_frame _ _ _ _ t, fun t => writeField_frame _ _ _ _ t,
    fun t => writeField_frame _ _ _ _ t, fun t => writeHoldLink_frame _ _ t, fun t => linkFilled_frame _ _ t⟩

theorem writeNoteOutcome_frame (note : Nat) (o : NoteOutcome) (s : State) :
    UnitFrame s (writeNoteOutcome note o s) := by
  apply inOrder_frame
  simp only [List.mem_cons, List.not_mem_nil, or_false, forall_eq_or_imp, forall_eq]
  refine ⟨fun t => writeField_frame _ _ _ _ t, fun t => ?_⟩
  split
  · exact raise_frame _ t
  · exact UnitFrame.refl t

theorem writeResult_frame (order : Nat) (r : OrderResult) (s : State) : UnitFrame s (writeResult order r s) := by
  apply inOrder_frame
  intro f hf t
  rcases List.mem_append.1 hf with h | h
  · simp only [List.mem_cons, List.not_mem_nil, or_false] at h
    rcases h with rfl | rfl | rfl | rfl | rfl | rfl <;> exact writeField_frame _ _ _ _ t
  · obtain ⟨i, hi, rfl⟩ := List.mem_mapIdx.1 h
    exact writeHost_frame _ _ _ t

theorem finishAppend_frame (order : Nat) (r : OrderResult) (notify : Bool) (s : State) :
    UnitFrame s (finishAppend order r notify s) := by
  apply inOrder_frame
  simp only [List.mem_cons, List.not_mem_nil, or_false, forall_eq_or_imp, forall_eq]
  refine ⟨fun t => writeResult_frame _ _ t, fun t => writeField_frame _ _ _ _ t,
    fun t => writeHoldLink_frame _ _ t, fun t => linkFinished_frame _ t, fun t => ?_⟩
  split
  · exact raise_frame _ t
  · exact UnitFrame.refl t

/-! ## Readiness, claims, turns -/

theorem markStarved_frame (c : CtxId) (i : Nat) (s : State) : UnitFrame s (markStarved c i s) := by
  unfold markStarved
  split
  · exact UnitFrame.refl s
  · split
    · exact UnitFrame.refl s
    · split
      · exact (modifyLost_frame _ _ _ s).trans (raise_frame _ _)
      · exact UnitFrame.refl s

theorem reevaluateOne_frame (s : State) (c : CtxId) : UnitFrame s (reevaluateOne s c) := by
  unfold reevaluateOne
  split
  · exact UnitFrame.refl s
  · split
    · exact UnitFrame.refl s
    · refine UnitFrame.trans ?_ (foldl_frame (fun t i => markStarved_frame c i t) _ _)
      split <;> split
      · exact UnitFrame.refl s
      · exact makeReady_frame _ _ s
      · exact unready_frame _ s
      · exact UnitFrame.refl s

theorem reevaluate_frame (s : State) : UnitFrame s (reevaluate s) := foldl_frame reevaluateOne_frame _ s

theorem claimFor_frame (c : CtxId) (s : State) (e : LostEntry) : UnitFrame s (claimFor c s e) := by
  unfold claimFor
  split
  · exact modifyStock_frame _ _ s
  · exact UnitFrame.refl s

theorem releaseClaimsOn_frame (s : State) (p : LaneId) : UnitFrame s (releaseClaimsOn s p) := by
  unfold releaseClaimsOn
  dsimp only
  split
  · exact (modifyStock_frame _ _ s).trans (blankAvailable_frame _ _)
  · exact modifyStock_frame _ _ s

theorem releaseClaims_frame (s : State) : UnitFrame s (releaseClaims s) := foldl_frame releaseClaimsOn_frame _ s

theorem issueMemberReads_frame (S w len : Nat) (s : State) (m : Member) :
    UnitFrame s (issueMemberReads S w len s m) := by
  unfold issueMemberReads
  dsimp only
  split
  · exact emit_frame _ s
  · exact (emit_frame _ s).trans (emit_frame _ _)

theorem beginCombine_frame (c : CtxId) (s : State) : UnitFrame s (beginCombine c s) := by
  unfold beginCombine
  split
  · exact UnitFrame.refl s
  · refine UnitFrame.trans (UnitFrame.trans ?_ (foldl_frame (claimFor_frame c) _ _))
      (foldl_frame (issueMemberReads_frame _ _ _) _ _)
    exact UnitFrame.of_same rfl rfl rfl

theorem ungrant_frame (s : State) : UnitFrame s (ungrant s) := UnitFrame.of_same rfl rfl rfl

theorem endOfTurn_frame (c : CtxId) (s : State) : UnitFrame s (endOfTurn c s) := by
  unfold endOfTurn
  split
  · exact ungrant_frame s
  · split
    · split
      · exact beginCombine_frame _ s
      · exact (ungrant_frame s).trans (makeReady_frame _ _ _)
    · exact ungrant_frame s

theorem grantNext_frame (s : State) : UnitFrame s (grantNext s) := by
  unfold grantNext
  split
  · exact UnitFrame.refl s
  · split
    · exact UnitFrame.refl s
    · refine UnitFrame.trans ?_ (reevaluate_frame _)
      unfold grantTurn
      exact (beginCombine_frame _ _).after rfl rfl rfl

/-! ## How a context ends -/

theorem enterDraining_frame (c : CtxId) (o : OrderOutcome) (d : Detail) (s : State) :
    UnitFrame s (enterDraining c o d s) := by
  unfold enterDraining
  split
  · exact UnitFrame.refl s
  · split
    · exact UnitFrame.refl s
    · exact UnitFrame.of_same rfl rfl rfl

theorem closeFragment_frame (c : CtxId) (i : Nat) (status : DeliveryStatus) (s : State) :
    UnitFrame s (closeFragment c i status s) := by
  unfold closeFragment
  split
  · exact UnitFrame.refl s
  · split
    · exact UnitFrame.refl s
    · split
      · apply inOrder_frame
        simp only [List.mem_cons, List.not_mem_nil, or_false, forall_eq_or_imp, forall_eq]
        exact ⟨fun t => returnRecord_frame _ _ _ t, fun t => modifyLost_frame _ _ _ t⟩
      · exact UnitFrame.refl s

theorem releaseReservationsOn_frame (c : CtxId) (s : State) (p : LaneId) :
    UnitFrame s (releaseReservationsOn c s p) := by
  unfold releaseReservationsOn
  dsimp only
  split
  · exact (modifyStock_frame _ _ s).trans (blankAvailable_frame _ _)
  · exact modifyStock_frame _ _ s

theorem freeContext_frame (c : CtxId) (s : State) : UnitFrame s (freeContext c s) :=
  (setContext_frame _ _ s).trans (foldl_frame (releaseReservationsOn_frame c) _ _)

theorem finishContext_frame (c : CtxId) (s : State) : UnitFrame s (finishContext c s) := by
  unfold finishContext
  split
  · exact UnitFrame.refl s
  · apply inOrder_frame
    intro f hf t
    simp only [List.mem_append, List.mem_map, List.mem_cons, List.not_mem_nil, or_false] at hf
    rcases hf with ⟨i, _, rfl⟩ | rfl | rfl
    · exact closeFragment_frame _ _ _ t
    · exact finishAppend_frame _ _ _ t
    · exact freeContext_frame _ t

theorem finishIfDue_frame (c : CtxId) (s : State) : UnitFrame s (finishIfDue c s) := by
  unfold finishIfDue
  split
  · exact finishContext_frame _ s
  · exact UnitFrame.refl s

theorem linkUnused_frame (p : LaneId) (e : StockEntry) (s : State) : UnitFrame s (linkUnused p e s) := by
  apply inOrder_frame
  simp only [List.mem_cons, List.not_mem_nil, or_false, forall_eq_or_imp, forall_eq]
  exact ⟨fun t => modifyStock_frame _ _ t, fun t => returnRecord_frame _ _ _ t⟩

theorem linkUnusedOn_frame (p : LaneId) (s : State) : UnitFrame s (linkUnusedOn p s) := by
  apply inOrder_frame
  intro f hf t
  obtain ⟨e, _, rfl⟩ := List.mem_map.1 hf
  exact linkUnused_frame _ _ t

theorem resolveAgain_frame (c : CtxId) (s : State) : UnitFrame s (resolveAgain c s) :=
  ((modifyContext_frame _ _ s).trans (unready_frame _ _)).trans (enterQueue_frame _ _)

theorem afterLoss_frame (c : CtxId) (member : Bool) (s : State) : UnitFrame s (afterLoss c member s) := by
  unfold afterLoss
  split
  · exact UnitFrame.refl s
  · split
    · exact enterDraining_frame _ _ _ s
    · split
      · dsimp only
        split
        · exact modifyContext_frame _ _ s
        · exact modifyContext_frame _ _ s
        · exact (modifyContext_frame _ _ s).trans (modifyContext_frame _ _ _)
        · exact (modifyContext_frame _ _ s).trans (resolveAgain_frame _ _)
        · exact UnitFrame.refl s
      · exact UnitFrame.refl s

theorem loseCandidates_frame (c : CtxId) (frags : List Nat) (st : CandState) (s : State) :
    UnitFrame s (loseCandidates c frags st s) := by
  unfold loseCandidates
  split
  · exact UnitFrame.refl s
  · dsimp only
    split
    · exact (setContext_frame _ _ s).trans (afterLoss_frame _ _ _)
    · exact ((setContext_frame _ _ s).trans (afterLoss_frame _ _ _)).trans (moveClass_frame _ _ _)

theorem evaluateStraggler_frame (c : CtxId) (b : Bool) (s : State) : UnitFrame s (evaluateStraggler c b s) :=
  modifyContext_frame _ _ s

theorem enterActive_frame (c : CtxId) (s : State) : UnitFrame s (enterActive c s) :=
  (modifyContext_frame _ _ s).trans (evaluateStraggler_frame _ _ _)

/-! ## Steering -/

theorem assignFragment_frame (c : CtxId) (s : State) (i : Nat) : UnitFrame s (assignFragment c s i) := by
  unfold assignFragment
  split
  · exact UnitFrame.refl s
  · split
    · exact UnitFrame.refl s
    · split
      · exact UnitFrame.refl s
      · exact (modifyLost_frame _ _ _ s).trans (modifyStock_frame _ _ _)

theorem waitSteering_frame (c : CtxId) (s : State) : UnitFrame s (waitSteering c s) := by
  unfold waitSteering
  dsimp only
  split
  · exact UnitFrame.of_same rfl rfl rfl
  · exact (raise_frame _ _).after rfl rfl rfl

theorem leaveSteering_frame (c : CtxId) (s : State) : UnitFrame s (leaveSteering c s) := by
  unfold leaveSteering
  dsimp only
  split
  · exact UnitFrame.of_same rfl rfl rfl
  · refine UnitFrame.trans (UnitFrame.of_same (t := { s with
      steering := { s.steering with waitList := s.steering.waitList.erase c } }) rfl rfl rfl) ?_
    split
    · exact (modifyContext_frame _ _ _).trans (enterQueue_frame _ _)
    · exact enterActive_frame _ _

/-- An attempt writes nothing to host memory and leaves what the control unit has loaded (R134, R135). -/
theorem attemptSteering_frame (c : CtxId) (s : State) : UnitFrame s (attemptSteering c s) := by
  unfold attemptSteering
  split
  · exact UnitFrame.refl s
  · split
    · dsimp only
      split
      · exact (foldl_frame (assignFragment_frame c) _ s).trans (waitSteering_frame _ _)
      · exact (foldl_frame (assignFragment_frame c) _ s).trans (leaveSteering_frame _ _)
    · exact UnitFrame.refl s

theorem enterSteering_frame (c : CtxId) (s : State) : UnitFrame s (enterSteering c s) := by
  unfold enterSteering
  split
  · exact UnitFrame.refl s
  · dsimp only
    split
    · exact (enterDraining_frame _ _ _ _).after rfl rfl rfl
    · exact (attemptSteering_frame _ _).after rfl rfl rfl

theorem retryWaiting_frame (s : State) : UnitFrame s (retryWaiting s) :=
  (foldl_frame (fun t c => attemptSteering_frame c t) _
    { s with steering := { s.steering with retryDue := [] } }).after rfl rfl rfl

/-- The end of an event leaves what the control unit has loaded (R110, R112, R136). -/
theorem arbitrate_frame (s : State) : UnitFrame s (arbitrate s) :=
  ((retryWaiting_frame s).trans (reevaluate_frame _)).trans (grantNext_frame _)

/-! ## Notes and orders -/

theorem endSettle_frame (c : CtxId) (s : State) : UnitFrame s (endSettle c s) :=
  (modifyContext_frame _ _ s).trans (enterQueue_frame _ _)

theorem settleIfLanded_frame (c : CtxId) (s : State) : UnitFrame s (settleIfLanded c s) := by
  unfold settleIfLanded
  split
  · exact UnitFrame.refl s
  · split
    · exact endSettle_frame _ s
    · exact UnitFrame.refl s

theorem settleAtDeadline_frame (c : CtxId) (s : State) : UnitFrame s (settleAtDeadline c s) := by
  unfold settleAtDeadline
  split
  · exact UnitFrame.refl s
  · split
    · exact UnitFrame.refl s
    · split
      · exact endSettle_frame _ s
      · exact UnitFrame.refl s

theorem applyNote_frame (c : CtxId) (addr : Nat) (n : Note) (s : State) : UnitFrame s (applyNote c addr n s) := by
  unfold applyNote
  split
  · exact UnitFrame.refl s
  · split
    · exact writeNoteOutcome_frame _ _ s
    · split
      · unfold applyData
        split
        · exact UnitFrame.refl s
        · split
          · exact writeNoteOutcome_frame _ _ s
          · apply inOrder_frame
            simp only [List.mem_cons, List.not_mem_nil, or_false, forall_eq_or_imp, forall_eq]
            exact ⟨fun t => modifyContext_frame _ _ t, fun t => writeNoteOutcome_frame _ _ t,
              fun t => evaluateStraggler_frame _ _ t⟩
      · unfold applyWithdraw
        split
        · exact UnitFrame.refl s
        · split
          · exact writeNoteOutcome_frame _ _ s
          · split
            · exact writeNoteOutcome_frame _ _ s
            · apply inOrder_frame
              simp only [List.mem_cons, List.not_mem_nil, or_false, forall_eq_or_imp, forall_eq]
              exact ⟨fun t => loseCandidates_frame _ _ _ t, fun t => writeNoteOutcome_frame _ _ t,
                fun t => evaluateStraggler_frame _ _ t⟩
      · apply inOrder_frame
        simp only [List.mem_cons, List.not_mem_nil, or_false, forall_eq_or_imp, forall_eq]
        exact ⟨fun t => modifyContext_frame _ _ t, fun t => enterDraining_frame _ _ _ t,
          fun t => writeNoteOutcome_frame _ _ t⟩
      · exact writeNoteOutcome_frame _ _ s

end Sys2Proof.Machine
end

