-- ==== Sys2Proof/Laws/PerInstr.lean ====
section
/-! SUPPORT. Statements made for every command, one lemma per constructor: what a register write can be. -/

namespace Sys2Proof.Laws

/-- A register write of the value its width holds is a well-formed command, and is none of the commands that no
register write carries (R154, R155, R171). -/
def RegisterWrites.Statement (i : Instr) : Prop :=
  ∀ offset width value : Nat, value < 256 ^ width → registerWriteCommand offset width value = i →
    i.wellFormed = true ∧
      ((∃ v, i = .anchorRegisterWrite v) ∨ i ∈ [Instr.start, .stop, .reload, .wake, .reset] ∨
        i = .ignoredRegisterWrite offset width value)

/-- What a command code is: one of the five commands, or none (R154). -/
theorem commandOfCode_cases (code : Nat) :
    commandOfCode code = none ∨ ∃ i ∈ [Instr.start, .stop, .reload, .wake, .reset], commandOfCode code = some i := by
  unfold commandOfCode
  split <;> simp

/-- A register write is an ANCHOR write, one of the five commands, or an ignored write (R154, R155, R171). -/
theorem registerWriteCommand_cases (offset width value : Nat) :
    (∃ v, registerWriteCommand offset width value = .anchorRegisterWrite v) ∨
      registerWriteCommand offset width value ∈ [Instr.start, .stop, .reload, .wake, .reset] ∨
      registerWriteCommand offset width value = .ignoredRegisterWrite offset width value := by
  unfold registerWriteCommand
  split
  · split
    · exact .inl ⟨_, rfl⟩
    · split
      · rcases commandOfCode_cases (value % 256) with h | ⟨i, hi, h⟩ <;> rw [h]
        · exact .inr (.inr rfl)
        · exact .inr (.inl hi)
      · exact .inr (.inr rfl)
  · exact .inr (.inr rfl)

/-- The statement of every command at once: each constructor's lemma below is a case of it. -/
theorem RegisterWrites.of_cases (i : Instr) : RegisterWrites.Statement i := by
  rintro offset width value hv rfl
  refine ⟨?_, registerWriteCommand_cases offset width value⟩
  rcases registerWriteCommand_cases offset width value with ⟨v, h⟩ | h | h
  · rw [h]; rfl
  · simp only [List.mem_cons, List.not_mem_nil, or_false] at h
    rcases h with h | h | h | h | h <;> rw [h] <;> rfl
  · rw [h]; simp [Instr.wellFormed, h, hv]

theorem RegisterWrites.start :
    RegisterWrites.Statement .start := RegisterWrites.of_cases _
theorem RegisterWrites.stop :
    RegisterWrites.Statement .stop := RegisterWrites.of_cases _
theorem RegisterWrites.reload :
    RegisterWrites.Statement .reload := RegisterWrites.of_cases _
theorem RegisterWrites.wake :
    RegisterWrites.Statement .wake := RegisterWrites.of_cases _
theorem RegisterWrites.reset :
    RegisterWrites.Statement .reset := RegisterWrites.of_cases _
theorem RegisterWrites.coldReset :
    RegisterWrites.Statement .coldReset := RegisterWrites.of_cases _
theorem RegisterWrites.anchorRegisterWrite (value : BitVec 64) :
    RegisterWrites.Statement (.anchorRegisterWrite value) := RegisterWrites.of_cases _
theorem RegisterWrites.eventsRead :
    RegisterWrites.Statement .eventsRead := RegisterWrites.of_cases _
theorem RegisterWrites.ignoredRegisterWrite (offset width value : Nat) :
    RegisterWrites.Statement (.ignoredRegisterWrite offset width value) := RegisterWrites.of_cases _
theorem RegisterWrites.startReadCompletion (image : ReadResult) :
    RegisterWrites.Statement (.startReadCompletion image) := RegisterWrites.of_cases _
theorem RegisterWrites.reloadReadCompletion (image : ReadResult) :
    RegisterWrites.Statement (.reloadReadCompletion image) := RegisterWrites.of_cases _
theorem RegisterWrites.leaveToTake (w : WalkerId) :
    RegisterWrites.Statement (.leaveToTake w) := RegisterWrites.of_cases _
theorem RegisterWrites.orderTake (record : ReadResult) :
    RegisterWrites.Statement (.orderTake record) := RegisterWrites.of_cases _
theorem RegisterWrites.noteTake (record : ReadResult) :
    RegisterWrites.Statement (.noteTake record) := RegisterWrites.of_cases _
theorem RegisterWrites.blankTake (lane : LaneId) (record : ReadResult) :
    RegisterWrites.Statement (.blankTake lane record) := RegisterWrites.of_cases _
theorem RegisterWrites.revisitDeadline (w : WalkerId) :
    RegisterWrites.Statement (.revisitDeadline w) := RegisterWrites.of_cases _
theorem RegisterWrites.revisitCompletion (w : WalkerId) (word : ReadResult) :
    RegisterWrites.Statement (.revisitCompletion w word) := RegisterWrites.of_cases _
theorem RegisterWrites.readCompletionTimeout (read : ReadId) :
    RegisterWrites.Statement (.readCompletionTimeout read) := RegisterWrites.of_cases _
theorem RegisterWrites.settleDeadline (c : CtxId) :
    RegisterWrites.Statement (.settleDeadline c) := RegisterWrites.of_cases _
theorem RegisterWrites.orphanExpiry (position : Nat) :
    RegisterWrites.Statement (.orphanExpiry position) := RegisterWrites.of_cases _
theorem RegisterWrites.stragglerExpiry (c : CtxId) :
    RegisterWrites.Statement (.stragglerExpiry c) := RegisterWrites.of_cases _
theorem RegisterWrites.solveBegin :
    RegisterWrites.Statement .solveBegin := RegisterWrites.of_cases _
theorem RegisterWrites.solveCompletion :
    RegisterWrites.Statement .solveCompletion := RegisterWrites.of_cases _
theorem RegisterWrites.steeringRetry (lane : LaneId) :
    RegisterWrites.Statement (.steeringRetry lane) := RegisterWrites.of_cases _
theorem RegisterWrites.combineGrant :
    RegisterWrites.Statement .combineGrant := RegisterWrites.of_cases _
theorem RegisterWrites.combineCompletion (reads : List SurvivorRead) (internalFault : Bool) :
    RegisterWrites.Statement (.combineCompletion reads internalFault) := RegisterWrites.of_cases _
theorem RegisterWrites.drainFinish (c : CtxId) :
    RegisterWrites.Statement (.drainFinish c) := RegisterWrites.of_cases _
theorem RegisterWrites.idleDeadlineExpiry :
    RegisterWrites.Statement .idleDeadlineExpiry := RegisterWrites.of_cases _
theorem RegisterWrites.dozeEntry :
    RegisterWrites.Statement .dozeEntry := RegisterWrites.of_cases _
theorem RegisterWrites.holdoffExpiry :
    RegisterWrites.Statement .holdoffExpiry := RegisterWrites.of_cases _

end Sys2Proof.Laws
end

