-- ==== Sys2Proof/Tests/Slice0.lean ====
section
/-! SUPPORT. Tests: the worked values of the manual, one small step per command, terms that WellFormed refuses, and for each
statement with hypotheses a concrete state that meets them. Every expected value is the manual's or worked out from its
rules by hand. -/

namespace Sys2Proof.Tests

-- one proof after another: many kernel evaluations at once exhaust the memory limit of the check
set_option Elab.async false

open Sys2Proof Sys2Proof.Machine

/-! ## Small states and images -/

/-- A projection of the next state. -/
def after {α : Type} (o : Host.Outcome State Fault Refusal) (f : State → α) : Option α :=
  match o with
  | .next s => some (f s)
  | .fault _ => none
  | .refused _ => none

/-- The reset state with an engine state and an anchor block at 0x10000. -/
def engineAt (e : Engine) : State :=
  { State.reset with control := { State.reset.control with engine := e, anchor := 0x10000 } }

/-- A running engine. -/
def running : State := engineAt .running

/-- A state whose one enabled fence window runs from 0x100000 to 0x200000. -/
def fenced (s : State) : State :=
  { s with control := { s.control with
      fences := #v[{ base := 0x100000, limit := 0x200000, enabled := true }, FenceWindow.disabled,
        FenceWindow.disabled, FenceWindow.disabled] } }

/-- Bytes filled up with zeros to `n`. -/
def pad (n : Nat) (bytes : List Byte) : List Byte := bytes ++ List.replicate (n - bytes.length) 0#8

/-- A note record. -/
def noteImage (link kind tag frag first count data checks : Nat) : List Byte :=
  pad 64 (leBytes 8 link ++ leBytes 2 kind ++ leBytes 2 tag ++ leBytes 4 frag ++ leBytes 4 first ++
    leBytes 4 count ++ leBytes 8 data ++ leBytes 8 checks)

/-- A delivery record. -/
def blankImage (link buffer area capacityField : Nat) : List Byte :=
  pad 64 (leBytes 8 link ++ leBytes 8 buffer ++ leBytes 8 area ++ leBytes 1 capacityField)

/-- A repair order on profile 0 with notify set: link, tag, hint, length, lost and candidate fragments. -/
def orderImage (link tag hint length : Nat) (lost cands : List Nat) : List Byte :=
  let head := leBytes 8 link ++ leBytes 2 tag ++ leBytes 1 0 ++ leBytes 1 hint ++ leBytes 1 1 ++
    leBytes 1 lost.length ++ leBytes 2 cands.length ++ leBytes 4 length
  pad 512 (pad 0x40 (pad 0x20 head ++ lost.flatMap fun f => leBytes 4 f) ++ cands.flatMap fun f => leBytes 2 f)

/-- An anchor block with this format word and every chain start on this link word; every other field is 0. -/
def anchorImage (format link : Nat) : List Byte :=
  pad 4096 (pad 0x100 (pad 0x40 (leBytes 4 format) ++ leBytes 8 link ++ leBytes 8 link) ++
    (List.range 32).flatMap fun _ => pad 32 (leBytes 8 link))

/-- The stripe of section 1.2: three data and two parity fragments. -/
def threeTwo : Profile :=
  { valid := true, k := 3, m := 2, sizeCode := 0, mask := 15
    coeffs := [1#8, 1#8, 1#8, 1#8, 2#8, 4#8] }

/-- Two data fragments and their sum; no check lane is compared. -/
def twoOne : Profile :=
  { valid := true, k := 2, m := 1, sizeCode := 0, mask := 0, coeffs := [1#8, 1#8] }

/-- A running engine that has loaded `twoOne` as profile 0. -/
def loaded : State :=
  { running with control := { running.control with
      profiles := running.control.profiles.set 0 twoOne
      timers := { running.control.timers with settle := 1000 } } }

/-- A candidate with window 0 up to `n` landed. -/
def landedTo (n frag : Nat) : Candidate :=
  { frag := frag, rank := 0, state := .landing, role := .basis, demotions := 0, tried := false
    ranges := [{ first := 0, count := n, dataAddr := 0x8000, checks := none, ordinal := 1 }] }

/-- A candidate that has landed nothing. -/
def awaitedAs (r : Role) (frag : Nat) : Candidate :=
  { frag := frag, rank := 0, state := .awaited, role := r, demotions := 0, tried := false, ranges := [] }

/-- A context of `twoOne`, three windows long: fragment 0 lost, on lane 0; fragments 1 and 2 its basis. -/
def ctx : Context :=
  { tag := 7, orderAddr := 0x3000, hint := 3, notify := true, profile := twoOne
    length := 8193, windows := 3, state := .active
    lost := [{ frag := 0, spread := false, key := 0x20, lane := some 0, resolvedKey := some 0x20
               openRecord := some
                { blank := { addr := 0x4000, buffer := 0x20000, checkArea := 0x5000, capacity := 3 }
                  first := 0, count := 0 }
               recordsUsed := 1, preferred := some 0, groupFirst := some 0, groupLast := some 31
               starved := false }]
    roster := [landedTo 3 1, landedTo 3 2], basis := [1, 2], changeCount := 1, generation := 1
    rows := [[1#8, 1#8]], front := 0, ordinal := 2, margin := 0, urgency := 0, attempts := 0
    settleDeadline := none, stragglerDeadline := none, stragglerArmed := false
    cancelPending := false, abortPending := false, solveOwed := false
    notesAccepted := 2, demotions := 0, basesSolved := 1, outcome := .new, detail := .none }

/-- `ctx` before its solve: SOLVING, not steered. -/
def solvingCtx : Context :=
  { ctx with
    state := .solving, generation := 0, rows := [], basesSolved := 0
    lost := ctx.lost.map fun e =>
      { e with lane := none, resolvedKey := none, openRecord := none, recordsUsed := 0
               preferred := none, groupFirst := none, groupLast := none } }

/-- A state with context 0 in use. -/
def withCtx (x : Context) (s : State) : State := { s with contexts := s.contexts.set 0 (some x) }

/-- The combine in flight for `ctx`, one valid byte long. -/
def ctxCombine : Combine :=
  { ctx := 0, window := 0, changeCount := 1, generation := 1
    members := [{ frag := 1, first := 0, dataAddr := 0x8000, checks := none, readFailed := false },
      { frag := 2, first := 0, dataAddr := 0x8000, checks := none, readFailed := false }]
    rows := [[1#8, 1#8]], validLength := 1, begunAt := 0 }

/-- Context 0 combining its window 0. -/
def combining (x : Context) : State :=
  { withCtx x running with
    combine := some ctxCombine
    arbiter := { running.arbiter with grantee := some 0, turnCount := 1 } }

/-- The solve in flight for `solvingCtx`. -/
def ctxSolve : Solve := solveFor 0 solvingCtx

/-- The one context in use drains ABORTED while its solve is in flight. -/
def solvingLast (e : Engine) : State :=
  { withCtx { solvingCtx with state := .draining, outcome := .aborted, abortPending := true } (engineAt e) with
    solve := some ctxSolve }

/-- A walker reading the record at `a`. -/
def readingAt (a : Nat) : Walker :=
  { state := .reading, cursor := .startField, successor := some a, deadline := none, wakePending := false
    readAt := some 0 }

/-- A walker held at the record at `a`, its deadline at 5. -/
def heldAtRecord (a : Nat) : Walker :=
  { state := .held, cursor := .record a, successor := none, deadline := some 5, wakePending := false
    readAt := none }

/-- A blank in stock at `a`, without marks. -/
def stocked (a : Nat) : StockEntry :=
  { blank := { addr := a, buffer := 0x20000, checkArea := 0x5000, capacity := 2 }, reservation := none, claim := none }

/-- A state with this stock on lane 0. -/
def withStock (es : List StockEntry) (s : State) : State :=
  { s with lanes := s.lanes.set 0 { s.lanes[0] with stock := es } }

/-- A pen entry. -/
def penEntry (a tag deadline : Nat) : PenEntry :=
  { addr := a, deadline := deadline
    note := { kind := .data, tag := tag, frag := 1, first := 0, count := 1, dataAddr := 0x8000, checksAddr := 0 } }

/-! ## Terms that WellFormed refuses -/

theorem test_wf_refuses_short_anchor_image :
    Instr.wellFormed (.startReadCompletion (.data [])) = false ∧
      Instr.wellFormed (.reloadReadCompletion (.data [])) = false := by decide +kernel

theorem test_wf_refuses_short_records :
    Instr.wellFormed (.orderTake (.data [0#8])) = false ∧ Instr.wellFormed (.noteTake (.data [0#8])) = false ∧
      Instr.wellFormed (.blankTake 3 (.data [0#8])) = false := by decide +kernel

theorem test_wf_refuses_long_link_word :
    Instr.wellFormed (.revisitCompletion .order (.data (leBytes 9 1))) = false := by decide +kernel

theorem test_wf_refuses_impossible_positions :
    Instr.wellFormed (.orphanExpiry 32) = false ∧
      Instr.wellFormed (.readCompletionTimeout (.survivor 16)) = false := by decide +kernel

theorem test_wf_refuses_writes_that_are_not_ignored :
    Instr.wellFormed (.ignoredRegisterWrite 0x08 4 1) = false ∧
      Instr.wellFormed (.ignoredRegisterWrite 0x00 8 0) = false ∧
      Instr.wellFormed (.ignoredRegisterWrite 0x10 4 (2 ^ 32)) = false := by decide +kernel

theorem test_wf_refuses_too_many_survivors :
    Instr.wellFormed (.combineCompletion (List.replicate 17 ⟨.failed, .failed⟩) false) = false ∧
      Instr.wellFormed (.combineCompletion [⟨.failed, .data (leBytes 5 0)⟩] false) = false := by decide +kernel

theorem test_ill_formed_is_refused :
    exec (.orderTake (.data [])) State.reset = .refused .illFormed := rfl

/-! ## The manual's worked values -/

theorem test_products_of_chapter_1 :
    gfMul 0xF4#8 3#8 = 1#8 ∧ gfMul 0xF4#8 5#8 = 3#8 ∧ gfMul 0xF4#8 0x90#8 = 0x70#8 ∧
      gfMul 8#8 0x30#8 = 0x9D#8 ∧ gfInv 3#8 = 0xF4#8 ∧ gfPow 2#8 31 = 0xC0#8 := by decide +kernel

theorem test_check_of_window_a :
    windowCheck [0#8, 0#8, 0x30#8, 1#8] = [0x31#8, 0x61#8, 0xC1#8, 0x9C#8] := by decide +kernel

theorem test_inverse_of_basis_2_3_4 :
    invertRows ([2, 3, 4].map threeTwo.generatorRow) =
      some [[2#8, 0xF5#8, 0xF4#8], [3#8, 0xF4#8, 0xF4#8], [1#8, 0#8, 0#8]] := by decide +kernel

theorem test_equal_parity_rows_are_singular :
    invertRows [[0#8, 0#8, 1#8], [1#8, 1#8, 1#8], [1#8, 1#8, 1#8]] = none := by decide +kernel

theorem test_window_counts :
    windowCount 10000000 65536 = 153 ∧ validLength 10000000 65536 152 = 38528 ∧ windowCount 360000 65536 = 6 ∧
      validLength 360000 65536 5 = 32320 := by decide +kernel

/-- The steering table of chapter 8's worked sequence. -/
def chapterEight : SteeringTable :=
  { SteeringTable.initial with
    seps := tabulate fun i => ([16384, 17920, 18432, 20480, 32768] : List Nat).getD i.val 49152
    intervals := tabulate fun i => ([⟨.normal, 0⟩, ⟨.forbidden, 0⟩, ⟨.normal, 5⟩, ⟨.spread, 0⟩, ⟨.normal, 8⟩,
      ⟨.spread, 0⟩] : List Interval).getD i.val ⟨.normal, 12⟩
    spreadBase := 16384, spreadRange := 4096
    groupEnd := tabulate fun p => p == 3 || p == 7 || p == 15 }

theorem test_lfsr_of_chapter_8 :
    lfsrStep 0xACE1#16 = 0x59C3#16 ∧ lfsrStep 0x59C3#16 = 0xB387#16 ∧ lfsrStep 0xB387#16 = 0x670F#16 := by
  decide +kernel

theorem test_fallback_from_lane_5 :
    chapterEight.groupFirst 5 = 4 ∧ chapterEight.groupLast 5 = 7 ∧ fallbackOrder 5 4 7 = [5, 6, 7, 4] := by
  decide +kernel

theorem test_spread_draw_of_chapter_8 :
    resolveEntry chapterEight 0xACE1#16 { ctx.lost[0] with key := 0x4800 } = (0x670F#16, .resolved 18191 5) := by
  decide +kernel

/-! ## Register accesses, START and RELOAD -/

theorem witness_StepRunsFrontCommand :
    ({ running with pending := [.wake] } : State).pending = Instr.wake :: [] := rfl

theorem witness_CommandsKeepQueueAndLog : exec .start running = .next running := rfl

theorem witness_WellFormedCommandsComplete :
    Instr.wellFormed (.combineCompletion [⟨.data [5#8], .failed⟩, ⟨.data [6#8], .failed⟩] false) = true ∧
      (combining ctx).combine = some ctxCombine ∧
      readsFit ctxCombine [⟨.data [5#8], .failed⟩, ⟨.data [6#8], .failed⟩] = true := by decide +kernel

theorem witness_ResetValues :
    State.reset.control.engine = .stopped ∧ ReadResult.sized 4096 .failed = true := by decide +kernel

theorem witness_RegisterAccesses :
    State.reset.control.engine = .stopped ∧ running.control.engine ≠ .stopped ∧
      registerWriteCommand 0x04 4 9 = .ignoredRegisterWrite 0x04 4 9 ∧ 9 < 256 ^ 4 ∧
      accessServed 0x02 4 = false ∧ accessServed 4096 8 = false ∧ accessServed 0xFF8 8 = true ∧
      running.pen.length ≤ 32 ∧ registerReadCommand 0x18 4 = some .eventsRead ∧
      registerReadCommand 0x1C 4 = none ∧ registerReadCommand 0x10 8 = none ∧
      registerReadCommand 0x18 2 = none := by decide +kernel

theorem test_anchor_write_clears_low_bits :
    after (exec (.anchorRegisterWrite 0x12FFF) State.reset) (fun t => t.control.anchor) = some 0x12000 := by
  decide +kernel

theorem witness_CommandsByEngineState :
    State.reset.control.engine = .stopped ∧ running.control.engine = .running ∧
      (engineAt .dozing).control.engine = .dozing ∧ (engineAt .halted).control.engine ≠ .running ∧
      (engineAt .halted).control.engine ≠ .dozing ∧ 0x105 < 256 ^ 4 ∧ 0x105 % 256 = 5 ∧
      (256 ^ 8 - 1) % 256 > 5 := by decide +kernel

theorem test_command_code_is_byte_0 :
    registerWriteCommand 0x08 4 0x105 = .reset ∧ registerWriteCommand 0x08 8 6 = .ignoredRegisterWrite 0x08 8 6 := by
  decide +kernel

/-- The event unit of the worked sequence "holdoff" of chapter 10, at 200 µs. -/
def announced : State :=
  { running with
    control := { running.control with timers := { running.control.timers with holdoff := 500 } }
    events := { bits := 0x03, interruptEnable := true, holdoff := some 500, announcePending := true }
    msiInput := true, now := 200 }

theorem witness_EventUnitRules :
    announced.events.bits.getLsbD EventBit.orderFinished.index = true ∧
      announced.events.bits.getLsbD EventBit.engineStopped.index = false ∧
      announced.events.interruptEnable = true ∧ announced.events.holdoff.isSome = true ∧
      announced.events.announcePending = true ∧ announced.events.bits ≠ 0 ∧
      running.events.interruptEnable = false ∧ running.events.holdoff = none := by decide +kernel

theorem test_events_read_returns_and_clears :
    after (exec .eventsRead announced) (fun t => (t.out, t.events.bits)) = some ([.reply 3], 0) := by decide +kernel

theorem test_holdoff_expiry_announces :
    after (exec .holdoffExpiry announced) (fun t => (t.out, t.events.holdoff)) = some ([.msi], some 1000) := by
  decide +kernel

theorem test_holdoff_expiry_after_a_read :
    after (exec .holdoffExpiry { announced with events := { announced.events with bits := 0 } })
      (fun t => (t.out, t.events.holdoff)) = some ([], none) := by decide +kernel

theorem witness_StartAndReloadReadTheAnchorBlock :
    State.reset.control.anchor = 0 ∧ (engineAt .stopped).control.anchor ≠ 0 ∧
      (engineAt .stopped).control.anchor.toNat % 4096 = 0 ∧ running.control.reloadAt = none ∧
      (engineAt .stopped).control.engine = .stopped := by decide +kernel

theorem test_start_reads_the_anchor_block :
    after (exec .start (engineAt .stopped)) (fun t => (t.control.engine, t.out)) =
      some (.starting, [.read 0x10000 4096]) := by decide +kernel

theorem test_reload_is_merged :
    after (exec .reload running) (fun t => after (exec .reload t) fun u => u.out.length) = some (some 1) := by
  decide +kernel

theorem witness_StartRejectionLoadsNothing :
    (engineAt .starting).control.engine = .starting ∧ (anchorImage 0 1).length = 4096 ∧
      imageFault (engineAt .starting) (readAnchor (anchorImage 0 1)) = some .anchorRead := by decide +kernel

theorem witness_ImageChecksInOrder :
    (readAnchor (anchorImage 0x62100001 1)).format = 0x62100001 ∧
      imageFault (engineAt .starting) (readAnchor (anchorImage 0x62100001 1)) = none := by decide +kernel

theorem test_anchor_fence_comes_before_the_tables :
    imageFault (engineAt .starting)
      { readAnchor (anchorImage 0x62100001 1) with
        fences := (fenced running).control.fences
        profiles := Vector.replicate 16 { twoOne with k := 1 } } = some .anchorFence := by decide +kernel

theorem test_sixteen_and_five_is_too_many :
    Profile.fails { twoOne with k := 16, m := 5 } = true ∧ Profile.fails { twoOne with k := 16, m := 4 } = false := by
  decide +kernel

theorem witness_StartSuccessLoadsTheImage :
    (anchorImage 0x62100001 1).length = 4096 ∧ readLink (readAnchor (anchorImage 0x62100001 1)).orderStart = .hold ∧
      readLink (readAnchor (anchorImage 0x62100001 1)).noteStart = .hold ∧
      (∀ p : LaneId, readLink ((readAnchor (anchorImage 0x62100001 1)).blankStarts[p]) = .hold) ∧
      imageFault (engineAt .starting) (readAnchor (anchorImage 0x62100001 0)) = none ∧
      readLink (readAnchor (anchorImage 0x62100001 0)).orderStart = .malformed := by decide +kernel

/-- A byte ramp of this length: byte `i` is `3i + 5`, so that neighbouring bytes differ. -/
def ramp (n : Nat) : List Byte := (List.range n).map fun i => BitVec.ofNat 8 (3 * i + 5)

theorem witness_StartSuccessLoadsTheImage_reads :
    (ramp 4096).length = 4096 ∧ (readAnchor (ramp 4096)).format = 0x0E0B0805 ∧
      (readAnchor (ramp 4096)).noteStart = 0xF2EFECE9E6E3E0DD ∧
      (readAnchor (ramp 4096)).blankStarts[1] = 0x7A7774716E6B6865 ∧
      (readAnchor (ramp 4096)).steering.seps[1] = 0x0E0B ∧ (readAnchor (ramp 4096)).steering.seed = 0xA09D ∧
      (readAnchor (ramp 4096)).steering.spreadRange = 65536 - 0x8885 ∧
      ((readAnchor (ramp 4096)).steering.intervals[0]).kind = .forbidden ∧
      ((readAnchor (ramp 4096)).steering.intervals[0]).lane = 8 ∧ ((readAnchor (ramp 4096)).profiles[0]).k = 8 ∧
      ((readAnchor (ramp 4096)).profiles[0]).coeffs.take 2 = [0x35#8, 0x38#8] ∧
      (readAnchor (ramp 4096)).fences[0] =
        { base := 0x9A9794918E8B8000, limit := 0xB2AFACA9A6A3A000, enabled := true } := by
  refine ⟨?_, ?_, ?_, ?_, ?_, ?_, ?_, ?_, ?_, ?_, ?_, ?_⟩ <;> decide +kernel

theorem witness_StartSuccessLoadsTheImage_clamps :
    readTimers (List.replicate 64 0#8) =
        { settle := 0, straggler := 100, revisit := 1, dozeRevisit := 1000, idle := 0, holdoff := 0, orphan := 1000
          quota := 1 } ∧
      readTimers (List.replicate 64 0xFF#8) =
        { settle := 1000000, straggler := 10000000, revisit := 1000, dozeRevisit := 1000000, idle := 100000000
          holdoff := 10000, orphan := 10000000, quota := 128 } ∧
      (readTimers (pad 64 (List.replicate 0x18 0#8 ++ [1#8]))).idle = 10000 := by decide +kernel

theorem test_start_success :
    after (exec (.startReadCompletion (.data (anchorImage 0x62100001 1))) (engineAt .starting))
      (fun t => (t.control.engine, t.control.generation, t.noteWalker.state, t.noteWalker.deadline)) =
        some (.running, 1, .held, some 1) := by decide +kernel

theorem test_a_start_with_successors_reads_at_once :
    after (exec (.startReadCompletion (.data (anchorImage 0x62100001 0x3000))) (engineAt .starting))
      (fun t => (t.orderWalker.state, t.blankWalkers[31].state, t.out.take 2, t.out.length)) =
        some (.reading, .reading, [.read 0x3000 512, .read 0x3000 64], 34) := by decide +kernel

theorem witness_ReloadCompletionReplacesTables :
    imageFault { running with control := { running.control with reloadAt := some 0 } }
      (readAnchor (anchorImage 0x62100001 1)) = none ∧
    imageFault { running with control := { running.control with reloadAt := some 0 } }
      (readAnchor (anchorImage 0 1)) = some .anchorRead := by decide +kernel

theorem test_reload_to_zero_stops_the_idle_deadline :
    after (exec (.reloadReadCompletion (.data (anchorImage 0x62100001 1)))
        { running with control := { running.control with
            reloadAt := some 0, idleDeadline := some 10000
            timers := { running.control.timers with idle := 10000 } } })
      (fun t => (t.control.timers.idle, t.control.idleDeadline, t.control.idleElapsed)) = some (0, none, false) := by
  decide +kernel

/-! ## STOP, WAKE, doze, timeouts, halts -/

/-- Context 0 with a combine in flight, context 1 with nothing in flight and a blank reserved, two notes in the pen, and
two blanks in stock. -/
def busy : State :=
  withStock [stocked 0x6000, { stocked 0x6040 with reservation := some { ctx := 1, frag := 0 } }]
    { combining ctx with
      contexts := (combining ctx).contexts.set 1 (some { solvingCtx with tag := 8, orderAddr := 0x3200 })
      pen := [penEntry 0x7000 9 1000, penEntry 0x7040 9 1000] }

theorem witness_StopDrainsTheEngine :
    busy.control.engine = .running ∧ checkingOn busy.fenceList = false ∧ busy.pen ≠ [] ∧ inFlight busy 0 = true ∧
      ((busy.contexts[0]).map Context.state) = some .active ∧ (busy.contexts[1]).isSome = true ∧
      inFlight busy 1 = false ∧ (solvingLast .running).contexts[0].isSome = true ∧
      inFlight (solvingLast .running) 0 = true := by decide +kernel

theorem witness_StopDrainsTheEngine_stopping :
    (engineAt .stopping).control.engine = .stopping ∧ checkingOn (engineAt .stopping).fenceList = false ∧
      contextsInUse (engineAt .stopping) = 0 := by decide +kernel

theorem test_stop_writes_the_pen_and_drains :
    after (exec .stop busy) (fun t => (t.control.engine, (t.contexts[0]).map Context.outcome,
      (t.contexts[1]).isSome, t.lanes[0].filledTail)) = some (.stopping, some .aborted, false, some 0x6040) ∧
    after (exec .stop busy) (fun t => t.out.take 3) =
      some [.write 0x7028 [0x18#8], .write 0x7068 [0x18#8], .write 0x3289 [5#8]] := by decide +kernel

theorem test_stop_of_an_idle_engine :
    after (exec .stop running) (fun t => (t.control.engine, t.events.bits)) = some (.stopped, 0x80) := by
  decide +kernel

/-- A dozing engine whose note walker is held at 0x7000 and whose order walker re-reads its link. -/
def dozing : State :=
  { engineAt .dozing with
    noteWalker := heldAtRecord 0x7000
    orderWalker := { heldAtRecord 0x3000 with state := .revisiting, deadline := none, readAt := some 0 } }

theorem witness_WakeSendsHeldWalkersToRevisit :
    dozing.control.engine = .dozing ∧ (dozing.walker .note).state = .held ∧
      (heldLinkAddr dozing .note).isSome = true ∧ (dozing.walker .order).state = .revisiting ∧
      (dozing.walker (.blank 31)).state = .idle := by decide +kernel

theorem test_wake :
    after (exec .wake dozing) (fun t => (t.control.engine, t.noteWalker.state, t.orderWalker.wakePending, t.out)) =
      some (.running, .revisiting, true, [.read 0x7000 8]) := by decide +kernel

/-- A running engine whose idle deadline is at 10,000 µs. -/
def idling : State :=
  { running with
    noteWalker := heldAtRecord 0x7000
    control := { running.control with
      idleDeadline := some 10000, timers := { running.control.timers with idle := 10000 } } }

theorem witness_DozeRules :
    idling.control.idleDeadline = some 10000 ∧
      dozeReady { idling with control := { idling.control with idleElapsed := true } } = true ∧
      idling.control.idleElapsed = false := by decide +kernel

theorem test_idle_deadline :
    after (exec .idleDeadlineExpiry idling) (fun t => (t.now, t.control.idleElapsed, t.control.idleDeadline)) =
      some (10000, true, none) := by decide +kernel

theorem test_idle_deadline_enters_dozing_at_once :
    after (exec .idleDeadlineExpiry idling) (fun t => (t.control.engine, t.noteWalker.deadline)) =
      some (.dozing, some 11000) := by decide +kernel

/-- An engine whose mark is set, with a reload in flight. -/
def reloadingIdle : State :=
  { idling with control := { idling.control with idleDeadline := none, idleElapsed := true, reloadAt := some 0 } }

theorem witness_DozeRules_entries :
    idling.control.engine = .running ∧ idling.control.timers.idle ≠ 0 ∧ contextsInUse idling = 0 ∧
      idling.pen = [] ∧ idling.control.reloadAt = none ∧
      imageFault reloadingIdle (readAnchor (anchorImage 0 1)) = some .anchorRead := by decide +kernel

theorem test_a_rejected_reload_lets_the_engine_doze :
    after (exec (.reloadReadCompletion (.data (anchorImage 0 1))) reloadingIdle)
      (fun t => (t.control.engine, t.control.cause, t.events.bits)) = some (.dozing, .anchorRead, 0x20) := by
  decide +kernel

theorem test_doze_entry :
    after (exec .dozeEntry { idling with control := { idling.control with idleElapsed := true } })
      (fun t => (t.control.engine, t.noteWalker.deadline)) = some (.dozing, some 1000) := by decide +kernel

theorem witness_CompletionTimeoutEndsReads :
    ({ engineAt .starting with control := { (engineAt .starting).control with startReadAt := some 0 } }).control.startReadAt =
        some 0 ∧
      (dozing.walker .order).readAt = some 0 ∧ (combining ctx).combine = some ctxCombine ∧
      ctxCombine.members[1]?.isSome = true := by decide +kernel

theorem test_timeout_of_a_walker_read :
    after (exec (.readCompletionTimeout (.walker .order)) dozing) (fun t => (t.control.cause, t.now)) =
      some (.chainRead, 50000) := by decide +kernel

theorem witness_HaltsAndRefusedWrites :
    (fenced running).control.engine ≠ .halted ∧ (engineAt .halted).control.engine = .halted ∧
      writePermitted (fenced running) (0x1FFFD8 + 0x28) 1 = false ∧
      writePermitted (fenced running) (0x7000 + 0x089) 1 = false ∧
      writePermitted (fenced running) ((fenced running).control.anchor.toNat + 0x050) 8 = false ∧
      (fenced running).finishedTail = none ∧ (fenced running).lanes[31].filledTail = none ∧
      writePermitted (fenced running) ((fenced running).control.anchor.toNat + 0x108 + 32 * 31) 8 = false := by
  decide +kernel

/-- A context whose record's buffer lies inside the fence window and its check area outside. -/
def halfFenced : State :=
  let r : OpenRecord :=
    { blank := { addr := 0x4000, buffer := 0x100000, checkArea := 0x5000, capacity := 3 }, first := 0, count := 0 }
  fenced (withCtx { ctx with lost := ctx.lost.map fun e => { e with openRecord := some r } } running)

theorem witness_HaltsAndRefusedWrites_delivery :
    ((openRecordOf halfFenced 0 0).map fun r => r.blank.buffer) = some 0x100000 ∧
      writePermitted halfFenced 0x100000 4096 = true ∧ writePermitted halfFenced 0x5000 4 = false ∧
      writePermitted (fenced (withCtx ctx running)) 0x20000 4096 = false := by decide +kernel

theorem witness_HaltedEngineStaysFrozen :
    (engineAt .halted).control.engine = .halted ∧ Instr.wake ≠ .reset ∧
      exec .wake (engineAt .halted) = .next (engineAt .halted) := by
  refine ⟨rfl, by decide, rfl⟩

theorem witness_WritesStayInsideFences :
    step { State.reset with pending := [.wake] } = .next State.reset ∧ State.reset.working = false := by
  refine ⟨rfl, by decide +kernel⟩

theorem test_requests_keep_to_the_address_space :
    (readRequests (2 ^ 64 - 64) 64) = [.read (2 ^ 64 - 64) 64] ∧ (readRequests 0x8FC0 512).length = 2 := by
  decide +kernel

theorem test_a_write_across_two_windows_passes :
    writePermitted { running with control := { running.control with
        fences := #v[⟨0x200000, 0x300000, true⟩, ⟨0x100000, 0x200000, true⟩, ⟨0, 0, false⟩, ⟨0, 0, true⟩] } }
      0x1FFFFC 8 = true := by decide +kernel

/-! ## Walkers -/

/-- A walker in NEXT toward the record at 0x7000. -/
def toTake : Walker := nextAt .startField 0x7000

theorem witness_LeaveAndTakeMoveTheWalker :
    ({ running with orderWalker := toTake }).orderWalker.state = .next ∧
      ({ running with orderWalker := toTake }).orderWalker.successor = some 0x7000 ∧
      running.contexts[47] = none ∧
      (withStock [stocked 0x6000, stocked 0x6040] running).lanes[0].stock.length = 2 := by decide +kernel

theorem test_a_full_stock_gives_no_leave :
    after (exec (.leaveToTake (.blank 0))
        (withStock [stocked 0x6000, stocked 0x6040]
          { running with blankWalkers := running.blankWalkers.set 0 toTake }))
      (fun t => (t.blankWalkers[0].state, t.out)) = some (.next, []) := by decide +kernel

theorem test_leave_to_take_reads_the_record :
    after (exec (.leaveToTake .order) { running with orderWalker := toTake })
      (fun t => (t.orderWalker.state, t.out)) = some (.reading, [.read 0x7000 512]) := by decide +kernel

theorem witness_RevisitRules :
    (idling.walker .note).state = .held ∧ (idling.walker .note).deadline = some 5 ∧
      heldLinkAddr idling .note = some 0x7000 ∧ (dozing.walker .order).state = .revisiting ∧
      (dozing.walker .order).wakePending = false ∧ (leBytes 8 1).length = 8 ∧ leNat (leBytes 8 1) % 2 = 1 ∧
      leNat (leBytes 8 64) ≠ 0 ∧ leNat (leBytes 8 64) % 64 = 0 ∧ leNat (leBytes 8 32) % 64 ≠ 0 := by decide +kernel

theorem test_revisit_deadline :
    after (exec (.revisitDeadline .note) idling) (fun t => (t.now, t.noteWalker.state, t.out)) =
      some (5, .revisiting, [.read 0x7000 8]) := by decide +kernel

theorem witness_LeaveAndTakeMoveTheWalker_leave :
    running.control.engine = .running ∧ (engineAt .stopped).control.engine ≠ .running ∧
      (engineAt .stopped).control.engine ≠ .dozing := by decide +kernel

theorem test_revisit_finds_hold_or_a_successor_read_at_once :
    after (exec (.revisitCompletion .order (.data (leBytes 8 0xFF1))) dozing)
      (fun t => (t.orderWalker.state, t.orderWalker.deadline)) = some (.held, some 1000) ∧
    after (exec (.revisitCompletion .order (.data (leBytes 8 0x7000))) dozing)
      (fun t => (t.orderWalker.state, t.out)) = some (.reading, [.read 0x7000 512]) :=
  ⟨by decide +kernel, by decide +kernel⟩

/-- A running engine whose three kinds of walker each read a record. -/
def reading (s : State) : State :=
  { s with
    orderWalker := readingAt 0x3000, noteWalker := readingAt 0x7000
    blankWalkers := s.blankWalkers.set 0 (readingAt 0x6000) }

theorem witness_BadRecordsHaltTheEngine :
    takes (reading running) .note 0x7000 ∧ (noteImage 0 1 7 1 0 1 0x8000 0).length = recordLength .note ∧
      leNat ((noteImage 0 1 7 1 0 1 0x8000 0).take 8) = 0 ∧
      takes (reading (fenced running)) .order 0x3000 ∧ imageLink (orderImage 1 7 3 8193 [0] [1, 2]) ≠ .malformed ∧
      checkingOn (fenced running).fenceList = true ∧ writePermitted (fenced running) 0x3000 512 = false := by
  unfold takes; decide +kernel

theorem test_a_malformed_link_halts :
    after (exec (.revisitCompletion .order (.data (leBytes 8 32))) dozing) (fun t => (t.control.cause, t.pen)) =
      some (.chainMalformed, []) := by decide +kernel

/-! ## Orders -/

theorem writePermitted_of_unfenced {s : State} (h : s.unfenced) (a len : Nat) : writePermitted s a len = true := by
  unfold State.unfenced at h
  simp [writePermitted, h]

theorem permits_of_unfenced {s : State} (h : s.unfenced) (ws : List PlannedWrite) : permits s ws :=
  fun _ _ _ => writePermitted_of_unfenced h _ _

theorem unfenced_reading_loaded : (reading loaded).unfenced := by unfold State.unfenced; decide +kernel

theorem witness_AppendsInOrder :
    (reading loaded).control.engine ≠ .halted ∧
      permits (reading loaded) (recordWrites (reading loaded) 31 0x6000 (RecordFields.unopened .unused)) ∧
      permits (reading loaded) (finishWrites (reading loaded) 0x3000 ctx.result) :=
  ⟨by decide +kernel, permits_of_unfenced unfenced_reading_loaded _, permits_of_unfenced unfenced_reading_loaded _⟩

theorem witness_OrderValidationInOrder :
    validateOrder loaded (readOrder (orderImage 1 7 3 268435456 [2] [0, 1])) = .ok twoOne ∧
      validateOrder loaded (readOrder (orderImage 1 7 3 268435457 [0] [1, 2])) = .error .length ∧
      validateOrder loaded (readOrder (orderImage 1 7 3 8193 [3] [1, 2])) = .error .lostList ∧
      validateOrder loaded (readOrder (orderImage 1 7 3 8193 [0] [0, 2])) = .error .candidateList ∧
      validateOrder (withCtx ctx loaded) (readOrder (orderImage 1 7 3 8193 [0] [1, 2])) = .error .dupTag ∧
      validateOrder running (readOrder (orderImage 1 7 3 0 [0] [1, 2])) = .error .profile := by decide +kernel

theorem witness_OrderValidationInOrder_reads :
    (readOrder (ramp 512)).tag = 0x201D ∧ (readOrder (ramp 512)).hint = 3 ∧ (readOrder (ramp 512)).lostCount = 0x2C ∧
      (readOrder (ramp 512)).lost.length = 6 ∧ (readOrder (ramp 512)).lost[1]? = some ⟨0x71, true, 0x7A77⟩ ∧
      (readOrder (ramp 512)).candCount = 0x2F ∧ (readOrder (ramp 512)).cands.length = 19 ∧
      (readOrder (ramp 512)).cands[1]? = some ⟨0xCB, 3⟩ := by decide +kernel

theorem witness_AcceptedOrderFillsAContext :
    takes (reading loaded) .order 0x3000 ∧ (orderImage 1 7 3 8193 [0] [1, 2]).length = 512 ∧
      imageLink (orderImage 1 7 3 8193 [0] [1, 2]) = .hold ∧ writePermitted (reading loaded) 0x3000 512 = true ∧
      validateOrder (reading loaded) (readOrder (orderImage 1 7 3 8193 [0] [1, 2])) = .ok twoOne ∧
      (reading loaded).contexts[0] = none ∧ (reading loaded).pen = [] ∧
      (reading loaded).control.timers.settle ≠ 0 := by
  unfold takes; decide +kernel

/-- An order read while the pen holds two DATA notes of its tag and one of another. -/
def penned : State :=
  reading { loaded with
    pen := [penEntry 0x8000 7 1000, penEntry 0x8040 9 1000,
            { penEntry 0x8080 7 1000 with note := { (penEntry 0x8080 7 1000).note with frag := 2 } }] }

theorem witness_AcceptedOrderFillsAContext_pen :
    takes penned .order 0x3000 ∧ checkingOn penned.fenceList = false ∧ penned.contexts[0] = none ∧
      validateOrder penned (readOrder (orderImage 1 7 3 8193 [0] [1, 2])) = .ok twoOne ∧
      validateOrder penned (readOrder (orderImage 1 7 3 8193 [0] [1])) = .ok twoOne ∧
      (readOrder (orderImage 1 7 3 8193 [0] [1])).cands.length < twoOne.k ∧ inFlight penned 0 = false ∧
      (∀ e ∈ penned.pen.filter fun e => e.note.tag == 7, e.note.kind = .data) ∧ 0 ∉ penned.solveQueue ∧
      penned.solve = none := by
  unfold takes; decide +kernel

theorem test_pen_notes_end_the_settle_or_meet_the_loss :
    after (exec (.orderTake (.data (orderImage 1 7 3 8193 [0] [1, 2]))) penned)
      (fun t => (t.out, t.pen.map PenEntry.addr, (t.contexts[0]).map Context.basis, t.solve.map Solve.ctx)) =
        some ([.write 0x3088 [1#8], .write 0x8028 [2#8], .write 0x80A8 [2#8]], [0x8040], some [1, 2], some 0) ∧
    after (exec (.orderTake (.data (orderImage 1 7 3 8193 [0] [1]))) penned)
      (fun t => (t.out.take 5, (t.contexts[0]).isSome, t.finishedTail)) =
        some ([.write 0x3088 [1#8], .write 0x8028 [0x14#8], .write 0x80A8 [0x14#8], .write 0x3089 [2#8],
          .write 0x308A [1#8]], false, some 0x3000) :=
  ⟨by decide +kernel, by decide +kernel⟩

theorem witness_RefusedOrderIsAppendedAtOnce :
    takes (reading loaded) .order 0x3000 ∧ imageLink (orderImage 1 7 3 8193 [3] [1, 2]) = .hold ∧
      validateOrder (reading loaded) (readOrder (orderImage 1 7 3 8193 [3] [1, 2])) = .error .lostList ∧
      permits (reading loaded) (finishWrites (reading loaded) 0x3000 (refusalResult .lostList 1)) :=
  ⟨by unfold takes; decide +kernel, by decide +kernel, by decide +kernel, permits_of_unfenced unfenced_reading_loaded _⟩

theorem test_orders_accepted_and_refused :
    after (exec (.orderTake (.data (orderImage 1 7 3 8193 [0] [1, 2]))) (reading loaded))
      (fun t => ((t.contexts[0]).map fun x => (x.tag, x.windows, x.settleDeadline), t.out, t.orderWalker.state)) =
        some (some (7, 3, some 1000), [.write 0x3088 [1#8]], .held) ∧
    after (exec (.orderTake (.data (orderImage 1 7 3 8193 [3] [1, 2]))) (reading loaded))
      (fun t => (t.out.take 2, t.finishedTail, t.events.bits, (t.contexts[0]).isSome)) =
        some ([.write 0x3089 [7#8], .write 0x308A [7#8]], some 0x3000, 1, false) :=
  ⟨by decide +kernel, by decide +kernel⟩

/-! ## Notes -/

/-- A full pen. -/
def fullPen : State :=
  reading { loaded with pen := (List.range 32).map fun i => penEntry (0x8000 + 64 * i) (100 + i) 1000 }

theorem witness_PenRules :
    takes fullPen .note 0x7000 ∧ fullPen.pen.length = 32 ∧ (readNote (noteImage 1 1 7 1 0 1 0x8000 0)).kind ≠ .bad ∧
      (readNote (noteImage 1 4 7 1 0 1 0x8000 0)).kind = .bad ∧ checkingOn fullPen.fenceList = false ∧
      writePermitted fullPen (0x7000 + 0x28) 1 = true ∧ (reading loaded).pen.length < 32 := by
  unfold takes; decide +kernel

theorem test_pen_overflow_drops_the_oldest :
    after (exec (.noteTake (.data (noteImage 1 1 7 1 0 1 0x8000 0))) fullPen)
      (fun t => (t.out, t.pen.length, (t.pen.getLast?).map PenEntry.addr, t.events.bits)) =
        some ([.write 0x8028 [0x17#8], .write 0x7028 [1#8]], 32, some 0x7000, 8) := by decide +kernel

/-- A pen of three notes, the middle one the latest to expire. -/
def threeNotes : State :=
  { running with pen := [penEntry 0x8000 1 1000, penEntry 0x8040 2 2000, penEntry 0x8080 3 500] }

theorem witness_PenRules_expiry :
    threeNotes.pen = [] ++ penEntry 0x8000 1 1000 :: [penEntry 0x8040 2 2000, penEntry 0x8080 3 500] ∧
      checkingOn threeNotes.fenceList = false ∧
      threeNotes.pen = [penEntry 0x8000 1 1000, penEntry 0x8040 2 2000] ++ penEntry 0x8080 3 500 :: [] ∧
      (∀ d ∈ [penEntry 0x8000 1 1000, penEntry 0x8040 2 2000] ++ [], max threeNotes.now 500 < d.deadline) := by
  decide +kernel

theorem test_orphan_expiry_takes_every_reached_deadline :
    after (exec (.orphanExpiry 0) threeNotes) (fun t => (t.now, t.out, t.pen)) =
      some (1000, [.write 0x8028 [0x17#8], .write 0x80A8 [0x17#8]], [penEntry 0x8040 2 2000]) := by decide +kernel

theorem witness_DataNoteChecksInOrder :
    dataCheck ctx (readNote (noteImage 1 1 7 3 0 1 0x8000 0)) = some .droppedNotCandidate ∧
      dataCheck { ctx with roster := [awaitedAs .basis 1, { landedTo 3 2 with state := .corrupt }] }
        (readNote (noteImage 1 1 7 2 0 1 0x8000 0)) = some .droppedSourceDead ∧
      dataCheck ctx (readNote (noteImage 1 1 7 1 2 2 0x8000 0)) = some .droppedRange ∧
      dataCheck ctx (readNote (noteImage 1 1 7 1 2 1 0x8000 0)) = some .droppedOverlap ∧
      dataCheck { ctx with front := 1 } (readNote (noteImage 1 1 7 1 0 1 0x8000 0)) = some .droppedLate ∧
      dataCheck { ctx with roster := [awaitedAs .basis 1] } (readNote (noteImage 1 1 7 1 0 3 0x8000 0)) = none := by
  decide +kernel

theorem witness_DataNoteChecksInOrder_reads :
    readNote (noteImage 1 3 7 5 2 9 0x8000 0x9004) =
        { kind := .cancel, tag := 7, frag := 5, first := 2, count := 9, dataAddr := 0x8000, checksAddr := 0x9004 } ∧
      (readNote (ramp 64)).kind = .bad ∧ (readNote (ramp 64)).tag = 0x2623 ∧ (readNote (ramp 64)).frag = 0x29 ∧
      (readNote (ramp 64)).count = 0x4A474441 := by decide +kernel

/-- A context of `twoOne` that settles with nothing landed. -/
def settlingCtx : Context :=
  { solvingCtx with
    state := .settling, roster := [awaitedAs .spare 1, awaitedAs .spare 2], basis := [], changeCount := 0
    settleDeadline := some 1000, ordinal := 0, notesAccepted := 0 }

theorem witness_DataNoteForALiveContext :
    takes (reading (withCtx settlingCtx loaded)) .note 0x7000 ∧
      (reading (withCtx settlingCtx loaded)).contexts[0] = some settlingCtx ∧ (∀ d : CtxId, ¬d < 0) ∧
      (readNote (noteImage 1 1 7 1 0 3 0x8000 0)).tag = settlingCtx.tag ∧
      dataCheck settlingCtx (readNote (noteImage 1 1 7 1 0 3 0x8000 0)) = none ∧
      dataCheck settlingCtx (readNote (noteImage 1 1 7 0 0 3 0x8000 0)) = some .droppedNotCandidate := by
  unfold takes; decide +kernel

/-- A context with a spare that has the front window. -/
def sparedCtx : Context :=
  { ctx with roster := [landedTo 3 1, awaitedAs .basis 2, { landedTo 3 0 with frag := 0, role := .spare }]
             lost := [], stragglerArmed := true, stragglerDeadline := some 40 }

theorem witness_LostCandidatesRebaseOrDrain :
    (withCtx sparedCtx running).contexts[0] = some sparedCtx ∧ sparedCtx.state ≠ .draining ∧
      (1 ∈ sparedCtx.basis) ∧ (withCtx ctx running).contexts[0] = some ctx ∧ (∀ f ∈ ctx.basis, f ≠ 9) := by
  decide +kernel

/-- A ready context whose margin counts one spare, on the list of class 1. -/
def classed : State :=
  { withCtx { ctx with urgency := 1, roster := ctx.roster ++ [awaitedAs .spare 0], lost := [] } running with
    arbiter := { running.arbiter with ready := running.arbiter.ready.set 1 [0] } }

theorem witness_LostCandidatesRebaseOrDrain_class :
    0 ∈ classed.readyContexts ∧ classed.readyContexts.Nodup ∧
      ((loseCandidates 0 [0] .withdrawn classed).contexts[0]).map Context.urgency = some 0 ∧
      (withCtx sparedCtx running).solve = none ∧ (withCtx sparedCtx running).solveQueue = [] := by decide +kernel

theorem test_a_class_change_moves_the_context :
    (loseCandidates 0 [0] .withdrawn classed).arbiter.ready = #v[[0], [], [], []] := by decide +kernel

/-- Context 0 SOLVING at the front of the solve queue, its margin counting one spare; context 1 behind it. -/
def queuedAhead : State :=
  { withCtx { solvingCtx with urgency := 1, roster := ctx.roster ++ [awaitedAs .spare 0], lost := [] } running with
    solveQueue := [0, 1] }

theorem witness_LostCandidatesRebaseOrDrain_queue :
    queuedAhead.solveQueue = [] ++ 0 :: [1] ∧ solvingCtx.state ≠ .active ∧
      ((loseCandidates 0 [0] .withdrawn queuedAhead).contexts[0]).map (fun x => (x.margin, x.urgency)) = some (0, 0) ∧
      (loseCandidates 0 [0] .withdrawn { queuedAhead with solveQueue := [1] }).solveQueue = [1] := by decide +kernel

theorem test_a_class_change_moves_to_the_back_of_the_solve_queue :
    (loseCandidates 0 [0] .withdrawn queuedAhead).solveQueue = [1, 0] := by decide +kernel

theorem test_a_lost_member_gives_way_to_the_spare :
    ((loseCandidates 0 [2] .withdrawn (withCtx sparedCtx running)).contexts[0]).map
      (fun x => (x.basis, x.state, x.changeCount, x.margin)) = some ([0, 1], .solving, 2, 0) := by decide +kernel

theorem test_loss_below_k_drains :
    ((loseCandidates 0 [2] .corrupt (withCtx ctx running)).contexts[0]).map
      (fun x => (x.state, x.outcome, x.detail, x.margin)) = some (.draining, .unrecoverable, .loss, -1) := by
  decide +kernel

/-- Context 0 draining while a solve of it is in flight. -/
def drainingBusy : State :=
  reading { withCtx { solvingCtx with state := .draining, outcome := .aborted } loaded with solve := some ctxSolve }

theorem witness_WithdrawAndCancelNotes :
    takes (reading (withCtx ctx loaded)) .note 0x7000 ∧
      (readNote (noteImage 1 2 7 2 0 0 0 0)).kind = .withdraw ∧ (readNote (noteImage 1 3 7 0 0 0 0 0)).kind = .cancel ∧
      (ctx.roster.find? fun j => j.frag == 2) = some (landedTo 3 2) ∧ (landedTo 3 2).state = .landing ∧
      checkingOn loaded.fenceList = false ∧ inFlight (reading (withCtx ctx loaded)) 0 = false ∧
      inFlight drainingBusy 0 = true ∧ takes drainingBusy .note 0x7000 := by
  unfold takes; decide +kernel

theorem witness_WithdrawAndCancelNotes_dropped :
    takes (reading (withCtx { ctx with roster := [{ landedTo 3 1 with state := .corrupt }] } loaded)) .note 0x7000 ∧
      (∀ k ∈ ctx.roster, k.frag ≠ (readNote (noteImage 1 2 7 9 0 0 0 0)).frag) ∧
      ([{ landedTo 3 1 with state := .corrupt }].find? fun j => j.frag == 1) =
        some { landedTo 3 1 with state := .corrupt } ∧ ctx.state ≠ .draining := by
  unfold takes; decide +kernel

theorem test_notes_for_a_live_context :
    after (exec (.noteTake (.data (noteImage 1 1 7 1 0 3 0x8000 0))) (reading (withCtx settlingCtx loaded)))
      (fun t => (t.out, (t.contexts[0]).map fun x => (x.ordinal, x.notesAccepted, x.roster.map Candidate.state))) =
        some ([.write 0x7028 [2#8]], some (1, 1, [.landing, .awaited])) ∧
    after (exec (.noteTake (.data (noteImage 1 3 7 0 0 0 0 0))) (reading (withCtx ctx loaded)))
      (fun t => (t.out.head?, t.finishedTail, (t.contexts[0]).isSome, t.lanes[0].filledTail)) =
        some (some (.write 0x7028 [3#8]), some 0x3000, false, some 0x4000) :=
  ⟨by decide +kernel, by decide +kernel⟩

/-! ## Basis selection and the solver -/

theorem test_ranking_is_by_landing_then_rank :
    (ranked 0 [awaitedAs .spare 1, { awaitedAs .spare 2 with rank := 3 }, { landedTo 1 3 with demotions := 9 }]).map
      Candidate.frag = [3, 1, 2] := by decide +kernel

theorem witness_DeadlinesChooseTheBasis :
    (withCtx settlingCtx running).contexts[0] = some settlingCtx ∧ settlingCtx.settleDeadline = some 1000 ∧
      0 ∉ (withCtx settlingCtx running).solveQueue ∧
      (withCtx sparedCtx running).contexts[0] = some sparedCtx ∧ sparedCtx.state = .active ∧
      sparedCtx.stragglerDeadline = some 40 := by decide +kernel

/-- `running` at 500, with this context and a straggler interval of 100. -/
def straggling (x : Context) : State := { withCtx x running with now := 500 }

/-- The straggler deadline that `evaluateStraggler` leaves context 0. -/
def stragglerAfter (advanced : Bool) (x : Context) : Option (Bool × Option Nat) :=
  ((evaluateStraggler 0 advanced (straggling x)).contexts[0]).map fun y => (y.stragglerArmed, y.stragglerDeadline)

theorem witness_DeadlinesChooseTheBasis_straggler :
    sparedCtx.stragglerCondition = true ∧ ({ sparedCtx with front := 3 }).stragglerCondition = false ∧
      (straggling sparedCtx).control.timers.straggler = 100 ∧ solvingCtx.state ≠ .active := by decide +kernel

theorem test_the_straggler_timer_arms_runs_on_restarts_and_clears :
    stragglerAfter false { sparedCtx with stragglerArmed := false, stragglerDeadline := none } = some (true, some 600) ∧
      stragglerAfter false sparedCtx = some (true, some 40) ∧ stragglerAfter true sparedCtx = some (true, some 600) ∧
      stragglerAfter false { sparedCtx with front := 3 } = some (false, none) := by decide +kernel

theorem test_settle_deadline :
    after (exec (.settleDeadline 0) (withCtx settlingCtx running))
      (fun t => (t.now, t.solve.map Solve.ctx, t.solveQueue, (t.contexts[0]).map Context.basis)) =
        some (1000, some 0, [], some [1, 2]) := by decide +kernel

theorem test_straggler_expiry :
    after (exec (.stragglerExpiry 0) (withCtx sparedCtx running))
      (fun t => (t.now, t.solve.map Solve.basis, (t.contexts[0]).map fun x => (x.basis, x.demotions))) =
        some (40, some [0, 1], some ([0, 1], 1)) := by decide +kernel

/-- The solver busy with context 1 while context 0 settles. -/
def solverBusy : State := { withCtx settlingCtx running with solve := some { solveFor 1 solvingCtx with ctx := 1 } }

theorem witness_DeadlinesChooseTheBasis_busy :
    solverBusy.contexts[0] = some settlingCtx ∧ solverBusy.solve.isSome = true ∧ 0 ∉ solverBusy.solveQueue ∧
      solverBusy.solve.map Solve.ctx ≠ some 0 ∧ (withCtx sparedCtx running).solveQueue = [] ∧
      (withCtx sparedCtx running).solve = none := by decide +kernel

theorem test_a_busy_solver_leaves_the_context_waiting :
    after (exec (.settleDeadline 0) solverBusy) (fun t => (t.solveQueue, t.solve.map Solve.ctx)) =
      some ([0], some 1) := by decide +kernel

/-- Contexts 0 and 1 on the solve queue, the second more urgent. -/
def queued : State :=
  { running with
    contexts := (running.contexts.set 0 (some { solvingCtx with urgency := 2 })).set 1 (some solvingCtx)
    solveQueue := [0, 1] }

theorem witness_SolveBeginTakesTheMostUrgent :
    queued.solveQueue = [0] ++ 1 :: [] ∧ queued.contexts[1] = some solvingCtx ∧ queued.solve = none ∧
      queued.contexts[0] = some { solvingCtx with urgency := 2 } ∧ solvingCtx.urgency < 2 ∧
      running.solveQueue = [] := by decide +kernel

theorem test_solve_begin :
    after (exec .solveBegin queued) (fun t => (t.solve.map fun v => (v.ctx, v.rows), t.solveQueue)) =
      some (some (1, [[0#8, 1#8], [1#8, 1#8]]), [0]) := by decide +kernel

/-- The completion of the solve of context 0 at hand. -/
def solving (x : Context) : State := { withCtx x running with solve := some ctxSolve }

theorem witness_StaleSolvesAreDiscarded :
    (solving { solvingCtx with changeCount := 2 }).solve = some ctxSolve ∧ ctxSolve.ctx = 0 ∧
      solvingCtx.changeCount = ctxSolve.changeCount ∧ (2 : BitVec 16) ≠ ctxSolve.changeCount ∧
      (solving { solvingCtx with state := .active }).combine = none := by decide +kernel

theorem witness_StaleSolvesAreDiscarded_drain :
    (solvingLast .stopping).control.engine = .stopping ∧ (solvingLast .stopping).solve = some ctxSolve ∧
      (((solvingLast .stopping).contexts[0]).map Context.state) = some .draining ∧
      (solvingLast .stopping).combine = none ∧ checkingOn (solvingLast .stopping).fenceList = false ∧
      contextsInUse (solvingLast .stopping) = 1 := by decide +kernel

theorem test_a_discarded_solve_ends_stopping :
    after (exec .solveCompletion (withStock [stocked 0x6000] (solvingLast .stopping)))
      (fun t => (t.control.engine, (t.contexts[0]).isSome, t.lanes[0].stock, t.lanes[0].filledTail, t.events.bits)) =
        some (.stopped, false, [], some 0x6000, 0x81) := by decide +kernel

theorem witness_StandingSolvesAreActedOn :
    (solving solvingCtx).contexts[ctxSolve.ctx] = some solvingCtx ∧ solvingCtx.state = .solving ∧
      invertRows ctxSolve.rows = some [[1#8, 1#8], [1#8, 0#8]] ∧ (∃ e ∈ solvingCtx.lost, e.lane = none) ∧
      (∀ e ∈ ({ solvingCtx with lost := ctx.lost } : Context).lost, e.lane.isSome = true) ∧
      invertRows [[1#8, 1#8], [1#8, 1#8]] = none ∧ checkingOn (solving solvingCtx).fenceList = false := by
  decide +kernel

/-- A context whose basis is two equal parity rows, with an untried spare. -/
def singularCtx : Context :=
  { solvingCtx with
    profile := { twoOne with m := 2, coeffs := [1#8, 1#8, 1#8, 1#8] }, basis := [2, 3]
    roster := [awaitedAs .spare 1, { landedTo 3 2 with tried := true }, { awaitedAs .basis 3 with tried := true }] }

theorem witness_StandingSolvesAreActedOn_singular :
    invertRows (solveFor 0 singularCtx).rows = none ∧ singularCtx.attempts + 1 < 8 ∧
      (ranked singularCtx.front (singularCtx.roster.filter fun k => k.frag ∈ singularCtx.basis ∧ k.tried = true)).getLast? =
        some { awaitedAs .basis 3 with tried := true } ∧
      (ranked singularCtx.front (singularCtx.roster.filter fun k =>
        (k.state = .awaited ∨ k.state = .landing) ∧ k.role = .spare ∧ k.tried = false)).head? =
          some (awaitedAs .spare 1) := by decide +kernel

theorem test_standing_solves :
    after (exec .solveCompletion { withCtx singularCtx running with solve := some (solveFor 0 singularCtx) })
      (fun t => (t.solve.map Solve.basis, (t.contexts[0]).map fun x => (x.basis, x.attempts, x.changeCount))) =
        some (some [1, 2], some ([1, 2], 1, 2)) ∧
    after (exec .solveCompletion (solving solvingCtx))
      (fun t => (t.steering.waitList, t.events.bits, (t.contexts[0]).map Context.rows)) =
        some ([0], 4, some [[1#8, 1#8]]) :=
  ⟨by decide +kernel, by decide +kernel⟩

theorem witness_DecodingReproducesTheStripe :
    threeTwo.coeffs.length = threeTwo.m * threeTwo.k ∧ (∀ f ∈ [2, 3, 4], f < threeTwo.k + threeTwo.m) ∧
      [0x10#8, 0x20#8, 0x30#8].length = threeTwo.k ∧
      gfDot (coefficientRow [[2#8, 0xF5#8, 0xF4#8], [3#8, 0xF4#8, 0xF4#8], [1#8, 0#8, 0#8]] (threeTwo.lostRow 0))
        [0x30#8, 0#8, 0x90#8] = 0x10#8 := by decide +kernel

theorem witness_SingularMeansUndecodable :
    ∀ r ∈ ([[1#8, 1#8], [1#8, 0#8]] : List (List Byte)), r.length = 2 := by decide +kernel

/-! ## Steering -/

theorem witness_EveryKeyHasOneInterval :
    (∀ i : Fin 31, chapterEight.seps[i] < 65536) ∧ (∀ i j : Fin 31, i ≤ j → chapterEight.seps[i] ≤ chapterEight.seps[j]) ∧
      chapterEight.lookup 65535 = some ⟨.normal, 12⟩ ∧ chapterEight.lookup 16384 = some ⟨.forbidden, 0⟩ := by
  decide +kernel

theorem witness_LfsrRunsThroughEveryNonzeroValue : (0xFFFF#16 : BitVec 16) ≠ 0 := by decide

theorem witness_ResolutionDrawsAtMostEight :
    chapterEight.lookup 0x4800 = some ⟨.spread, 0⟩ ∧ chapterEight.lookup 16500 = some ⟨.forbidden, 0⟩ ∧
      chapterEight.lookup 49152 = some ⟨.normal, 12⟩ ∧ chapterEight.spreadRange ≠ 0 ∧
      chapterEight.lookup 18191 = some ⟨.normal, 5⟩ ∧ chapterEight.lookup 17287 = some ⟨.forbidden, 0⟩ ∧
      chapterEight.lookup 18883 = some ⟨.spread, 0⟩ ∧ SteeringTable.initial.spreadRange = 0 := by decide +kernel

theorem witness_SteeringPassResolvesInOrder :
    (withCtx solvingCtx running).contexts[0] = some solvingCtx ∧
      (resolveEntry running.control.steering 1#16 solvingCtx.lost[0]).2 = .resolved 0x20 0 ∧
      (resolveEntry running.control.steering 1#16 { solvingCtx.lost[0] with spread := true }).2 = .failed .unresolved := by
  decide +kernel

/-- `solvingCtx` with three lost entries, the second of which needs a draw. -/
def failsSecond : Context :=
  { solvingCtx with
    lost := [solvingCtx.lost[0], { solvingCtx.lost[0] with frag := 1, spread := true },
      { solvingCtx.lost[0] with frag := 2 }] }

theorem witness_SteeringPassResolvesInOrder_fails :
    (withCtx failsSecond running).contexts[0] = some failsSecond ∧
      (resolveEntry running.control.steering running.steering.lfsr failsSecond.lost[0]).2 = .resolved 0x20 0 ∧
      (resolveEntry running.control.steering running.steering.lfsr failsSecond.lost[1]).2 = .failed .unresolved := by
  decide +kernel

theorem test_a_failing_resolution_keeps_the_keys_before_it :
    ((enterSteering 0 (withCtx failsSecond running)).contexts[0]).map
      (fun x => (x.outcome, x.detail, x.lost.map fun e => (e.resolvedKey, e.lane))) =
        some (.steerFailed, .unresolved, [(some 0x20, none), (none, none), (none, none)]) := by decide +kernel

/-- Context 0 waiting in STEERING on lane 0, where a blank has come. -/
def waiting : State :=
  { withStock [stocked 0x6000]
      (withCtx { solvingCtx with
        state := .steering, rows := [[1#8, 1#8]]
        lost := solvingCtx.lost.map fun e =>
          { e with resolvedKey := some 0x20, preferred := some 0, groupFirst := some 0, groupLast := some 31 } } running) with
    steering := { running.steering with waitList := [0], retryDue := [0] } }

theorem witness_SteeringAttemptsAndRetries :
    ((waiting.contexts[0]).map Context.state) = some .steering ∧ waiting.steering.waitList.Nodup ∧
      0 ∈ waiting.steering.retryDue ∧ waitersOn waiting 0 = [0] ∧ waiting.control.engine = .running := by decide +kernel

/-- `waiting` with its preferred lane 5, in the group of lanes 4 to 7, and the one blank on lane 4. -/
def waitingInGroup : State :=
  let x : Context :=
    { solvingCtx with
      state := .steering, rows := [[1#8, 1#8]], solveOwed := true
      lost := solvingCtx.lost.map fun e =>
        { e with resolvedKey := some 0x20, preferred := some 5, groupFirst := some 4, groupLast := some 7 } }
  { withCtx x running with
    lanes := running.lanes.set 4 { running.lanes[4] with stock := [stocked 0x6000] } }

theorem witness_SteeringAttemptsAndRetries_lanes :
    fallbackOrder 5 4 7 = [5, 6, 7] ++ 4 :: [] ∧
      (∀ r ∈ ([5, 6, 7] : List LaneId), waitingInGroup.lanes[r].stock = []) ∧
      waitingInGroup.lanes[4].stock = [] ++ stocked 0x6000 :: [] ∧
      ((waitingInGroup.contexts[0]).map fun x => x.lost.map LostEntry.preferred) = some [some 5] ∧
      ctx.lost.map LostEntry.lane = [some 0] ∧ waiting.lanes[0].stock = [] ++ stocked 0x6000 :: [] ∧
      (withCtx ctx running).lanes[0].stock = [] := by decide +kernel

theorem witness_SteeringAttemptsAndRetries_attempts :
    let held : State → LaneId → Bool := fun s p =>
      let u := (List.range 1).foldl (assignFragment 0) s
      ((u.contexts[0]).map fun y => y.lost.map LostEntry.lane) = some [some p] ∧
        u.lanes[p].stock.map StockEntry.reservation = [some ⟨0, 0⟩]
    held waiting 0 = true ∧ ((waiting.contexts[0]).map Context.solveOwed) = some false ∧
      held waitingInGroup 4 = true ∧ ((waitingInGroup.contexts[0]).map Context.solveOwed) = some true ∧
      held (withStock [] waiting) 0 = false ∧ 0 ∈ waiting.steering.waitList ∧
      0 ∉ waitingInGroup.steering.waitList ∧
      held { waitingInGroup with lanes := running.lanes } 4 = false := by decide +kernel

theorem witness_SteeringAttemptsAndRetries_available :
    let due : State := { waitingInGroup with steering := { waitingInGroup.steering with waitList := [0] } }
    waitersOn due 4 = [0] ∧ 4 ∉ due.steering.retryDue ∧ waitersOn due 3 = [] ∧
      List.Sublist [0] waiting.steering.waitList ∧ waiting.steering.retryDue = [0] := by decide +kernel

/-- Contexts 1 and 0 wait, the older on lane 1 alone, the newer on the group of all lanes; a blank has come on
lane 1. -/
def twoWaiting : State :=
  let older : Context := { solvingCtx with
    state := .steering, tag := 8, rows := [[1#8, 1#8]]
    lost := solvingCtx.lost.map fun e =>
      { e with lane := some 1, resolvedKey := some 0x20, preferred := some 1, groupFirst := some 0, groupLast := some 1 } }
  { waiting with
    contexts := waiting.contexts.set 1 (some older)
    lanes := running.lanes.set 1 { running.lanes[1] with stock := [stocked 0x6040] }
    steering := { waiting.steering with waitList := [1, 0], retryDue := [0, 1] } }

theorem test_waiters_are_served_in_wait_list_order :
    (retryWaiting twoWaiting).steering.waitList = [0] ∧
      (retryWaiting twoWaiting).lanes[1].stock.map StockEntry.reservation = [some ⟨1, 0⟩] := by decide +kernel

theorem test_steering_retry_reserves_the_blank :
    after (exec (.steeringRetry 0) waiting)
      (fun t => (t.steering.waitList, (t.contexts[0]).map Context.state, t.arbiter.grantee)) =
        some ([], some .active, some 0) ∧
    after (exec (.steeringRetry 0) waiting) (fun t => t.lanes[0].stock.map StockEntry.reservation) =
      some [some ⟨0, 0⟩] := by decide +kernel

/-! ## The combine unit -/

theorem witness_ReadyListsHoldTheReady :
    (withCtx ctx running).readyContexts.Nodup ∧ (withCtx ctx running).contexts[0] = some ctx ∧
      (withCtx ctx running).arbiter.grantee = none ∧ isReady (withCtx ctx running) 0 = true := by decide +kernel

/-- `ctx` between two records. -/
def unopened : Context := { ctx with lost := ctx.lost.map fun e => { e with openRecord := none } }

theorem witness_ReadyListsHoldTheReady_starved :
    isStarved (withCtx unopened running) 0 unopened unopened.lost[0] = true ∧
      unopened.lost[0].starved = false ∧ (withCtx unopened running).arbiter.grantee = none ∧
      isStarved (withCtx ctx running) 0 ctx ctx.lost[0] = false := by decide +kernel

theorem test_a_starved_fragment_is_announced_once :
    let t := reevaluate (withCtx unopened running)
    t.events.bits = 0x04 ∧ ((t.contexts[0]).map fun x => x.lost.map LostEntry.starved) = some [true] ∧
      reevaluate { t with events := running.events } = { t with events := running.events } := by decide +kernel

/-- Context 0 ready at the head of class 0. -/
def ready : State :=
  { withCtx ctx running with arbiter := { running.arbiter with ready := running.arbiter.ready.set 0 [0] } }

theorem witness_CombineGrantBeginsATurn :
    ready.arbiter.grantee = none ∧ ready.arbiter.ready[0] = 0 :: [] ∧ ready.contexts[0] = some ctx ∧
      (∀ j : Fin 4, ¬j < 0) := by decide +kernel

theorem witness_CombineGrantBeginsATurn_claims :
    ctx.lost[0].openRecord.isSome = true ∧ unopened.lost[0].openRecord = none ∧
      unopened.lost[0].lane = some 0 ∧
      (withStock [stocked 0x6000, { stocked 0x6040 with reservation := some ⟨0, 0⟩ }] running).lanes[0].stock =
        [stocked 0x6000] ++ { stocked 0x6040 with reservation := some ⟨0, 0⟩ } :: [] ∧
      (withStock [{ stocked 0x6000 with reservation := some ⟨1, 0⟩ }, stocked 0x6040] running).lanes[0].stock =
        [{ stocked 0x6000 with reservation := some ⟨1, 0⟩ }] ++ stocked 0x6040 :: [] := by decide +kernel

/-- The end of a turn of context 0 after `n` combines of a quota of 2. -/
def turnAfter (n : Nat) : State :=
  { withCtx ctx running with
    arbiter := { running.arbiter with grantee := some 0, turnCount := n, turnQuota := 2 } }

theorem witness_CombineGrantBeginsATurn_ends :
    (turnAfter 1).contexts[0] = some ctx ∧ isReady (turnAfter 1) 0 = true ∧ isReady (turnAfter 2) 0 = true ∧
      (turnAfter 1).arbiter.turnCount < (turnAfter 1).arbiter.turnQuota ∧
      (turnAfter 2).arbiter.turnQuota ≤ (turnAfter 2).arbiter.turnCount ∧
      isReady (withCtx settlingCtx (turnAfter 1)) 0 = false ∧ running.contexts[0] = none ∧
      running.readyContexts = [] ∧ (turnAfter 1).arbiter.grantee.isSome = true ∧
      (0 : Fin 4).val = min ctx.urgency 3 ∧ (arbitrate running).arbiter.grantee = none := by decide +kernel

theorem test_combine_grant :
    after (exec .combineGrant ready) (fun t => (t.arbiter.grantee, t.combine.map Combine.members, t.out)) =
      some (some 0, some ctxCombine.members, [.read 0x8000 4096, .read 0x8000 4096]) := by decide +kernel

theorem witness_BadCombinesDeliverNothing :
    (combining ctx).combine = some ctxCombine ∧ (combining ctx).contexts[0] = some ctx ∧
      readsFit ctxCombine [⟨.failed, .failed⟩, ⟨.data [6#8], .failed⟩] = true ∧
      (combining ctx).arbiter.grantee = some 0 ∧ ctx.changeCount = ctxCombine.changeCount ∧
      ctx.generation = ctxCombine.generation ∧ List.Sublist [1] (ctxCombine.members.map Member.frag) ∧
      (ctxCombine.members.map Member.frag).Nodup ∧ ctx.cancelPending = false ∧ ctx.abortPending = false ∧
      checkingOn (combining ctx).fenceList = false := by decide +kernel

theorem witness_BadCombinesDeliverNothing_stale :
    (combining { ctx with changeCount := 2 }).combine = some ctxCombine ∧ (2 : BitVec 16) ≠ ctxCombine.changeCount ∧
      ({ ctx with changeCount := 2 } : Context).state ≠ .draining := by decide +kernel

/-- `waiting` without a mark, a claimed blank in stock on lane 0 that bears this reservation. -/
def claimedWhileWaiting (r : Option Reservation) : State :=
  { withStock [{ stocked 0x6000 with claim := some 0, reservation := r }] waiting with
    steering := { waiting.steering with retryDue := [] } }

theorem test_a_released_claim_calls_for_the_retries_of_its_lane :
    (releaseClaims (claimedWhileWaiting none)).steering.retryDue = [0] ∧
      (releaseClaims (claimedWhileWaiting none)).lanes[0].stock = [stocked 0x6000] ∧
      (releaseClaims (claimedWhileWaiting (some ⟨1, 0⟩))).steering.retryDue = [] := by decide +kernel

/-- The last context drains in STOPPING while its combine is in flight. -/
def combiningLast : State :=
  withStock [{ stocked 0x6000 with claim := some 0 }, stocked 0x6040]
    { combining { ctx with state := .draining, outcome := .aborted, abortPending := true } with
      control := (engineAt .stopping).control }

theorem witness_BadCombinesDeliverNothing_stopping :
    combiningLast.control.engine = .stopping ∧ combiningLast.combine = some ctxCombine ∧
      ((combiningLast.contexts[0]).map Context.state) = some .draining ∧ combiningLast.solve = none ∧
      ({ combiningLast with solve := some ctxSolve }).solve.map Solve.ctx = some 0 ∧
      checkingOn combiningLast.fenceList = false ∧ contextsInUse combiningLast = 1 ∧
      combiningLast.arbiter.grantee = some 0 := by decide +kernel

theorem witness_BadCombinesDeliverNothing_mismatch :
    let op := { ctxCombine with members := ctxCombine.members.map fun m => { m with checks := some 0x9000 } }
    let reads : List SurvivorRead := [⟨.data [5#8], .data (leBytes 4 0)⟩, ⟨.data [6#8], .data (leBytes 4 0)⟩]
    readsFit op reads = true ∧ (∀ m ∈ op.members, m.checks.isSome = true) ∧
      (∀ v ∈ List.zipWith (survivorOf 4096) op.members reads, v.fails ctx.profile.mask = false) := by decide +kernel

theorem test_failing_and_discarded_combines :
    after (exec (.combineCompletion [⟨.failed, .failed⟩, ⟨.failed, .failed⟩] false) combiningLast)
      (fun t => (t.control.engine, (t.contexts[0]).isSome, t.lanes[0].stock, t.lanes[0].filledTail, t.events.bits)) =
        some (.stopped, false, [], some 0x6040, 0x81) ∧
    after (exec (.combineCompletion [⟨.failed, .failed⟩, ⟨.data [6#8], .failed⟩] false) (combining ctx))
      (fun t => (t.combine, (t.contexts[0]).isSome, t.finishedTail)) = some (none, false, some 0x3000) :=
  ⟨by decide +kernel, by decide +kernel⟩

theorem witness_GoodCombineDeliversAWindow :
    readsFit ctxCombine [⟨.data [5#8], .failed⟩, ⟨.data [6#8], .failed⟩] = true ∧
      (∀ v ∈ List.zipWith (survivorOf 4096) ctxCombine.members [⟨.data [5#8], .failed⟩, ⟨.data [6#8], .failed⟩],
        v.fails ctx.profile.mask = false) ∧
      endsInMismatch ctx.profile.mask 4096 ctxCombine.rows
        (List.zipWith (survivorOf 4096) ctxCombine.members [⟨.data [5#8], .failed⟩, ⟨.data [6#8], .failed⟩]) false = false ∧
      ctxCombine.rows.length = ctx.lost.length ∧ ctxCombine.window + 1 < ctx.windows ∧
      (∀ e ∈ ctx.lost, e.lane.isSome = true) ∧
      (∀ e ∈ ctx.lost, (e.openRecord.elim false fun r => decide (r.count + 1 < r.blank.capacity)) = true) := by
  decide +kernel

/-- `ctx` between two records, its blank claimed by the combine in flight. -/
def claimed : State := withStock [stocked 0x6000, { stocked 0x6040 with claim := some 0 }] (combining unopened)

theorem witness_GoodCombineDeliversAWindow_opens :
    claimed.lanes[0].stock = [stocked 0x6000] ++ { stocked 0x6040 with claim := some 0 } :: [] ∧
      unopened.lost[0].openRecord = none ∧ unopened.lost[0].lane = some 0 ∧
      (claimed.lanes[0].stock.find? fun k => k.claim == some 0) = some { stocked 0x6040 with claim := some 0 } ∧
      checkingOn claimed.fenceList = false ∧ claimed.control.engine = .running ∧
      (unopened.lost.map LostEntry.frag).Nodup := by decide +kernel

/-- `ctx` whose second member has only its front window landed, a spare having all three. -/
def lagging : Context :=
  { ctx with roster := [landedTo 3 1, landedTo 1 2, { landedTo 3 3 with role := .spare }] }

theorem test_the_advance_of_the_front_arms_the_straggler_timer :
    (after (exec (.combineCompletion [⟨.data [5#8], .failed⟩, ⟨.data [6#8], .failed⟩] false) (combining lagging))
        fun t => (t.contexts[0]).map fun y => (y.front, y.stragglerArmed, y.stragglerDeadline)) =
      some (some (1, true, some 100)) ∧
    (after (exec (.combineCompletion [⟨.data [5#8], .failed⟩, ⟨.data [6#8], .failed⟩] false) (combining ctx))
        fun t => (t.contexts[0]).map fun y => (y.front, y.stragglerArmed, y.stragglerDeadline)) =
      some (some (1, false, none)) := by decide +kernel

/-- Context 0 combining its last window into a record of capacity 3 while context 1 is ready. -/
def combiningFinal : State :=
  { combining { ctx with front := 2 } with
    contexts := (combining { ctx with front := 2 }).contexts.set 1
      (some { ctx with
        tag := 8, orderAddr := 0x3200
        lost := [{ ctx.lost[0] with
          openRecord := some
            { blank := { addr := 0x4400, buffer := 0x40000, checkArea := 0x5400, capacity := 3 }, first := 0, count := 0 } }] })
    combine := some { ctxCombine with window := 2 }
    arbiter := { (combining ctx).arbiter with ready := (combining ctx).arbiter.ready.set 0 [1] } }

theorem witness_GoodCombineDeliversAWindow_final :
    combiningFinal.combine = some { ctxCombine with window := 2 } ∧ 2 + 1 = ctx.windows ∧
      combiningFinal.contexts[0] = some { ctx with front := 2 } ∧ combiningFinal.solve = none ∧
      readsFit { ctxCombine with window := 2 } [⟨.data [5#8], .failed⟩, ⟨.data [6#8], .failed⟩] = true ∧
      checkingOn combiningFinal.fenceList = false := by decide +kernel

theorem test_the_last_window_frees_the_context_and_grants_the_next :
    after (exec (.combineCompletion [⟨.data [5#8], .failed⟩, ⟨.data [6#8], .failed⟩] false) combiningFinal)
      (fun t => (t.out.head?, t.finishedTail, (t.contexts[0]).isSome, t.arbiter.grantee, t.combine.map Combine.ctx)) =
        some (some (.write 0x22000 [3#8]), some 0x3000, false, some 1, some 1) := by decide +kernel

theorem witness_PredictionsAreMetWithoutAFault :
    ∀ v ∈ List.zipWith (survivorOf 2)
        [{ frag := 1, first := 0, dataAddr := 0x8000, checks := some 0x9000, readFailed := false }]
        [⟨.data [5#8], .data [5#8, 10#8, 20#8, 40#8]⟩],
      v.fails 15 = false := by decide +kernel

/-- Context 0 drained, with nothing in flight. -/
def drained : State := withCtx { ctx with state := .draining, outcome := .cancelled } running

theorem witness_DrainFinishFreesTheContext :
    ((drained.contexts[0]).map Context.state) = some .draining ∧ drained.solve = none ∧ drained.combine = none ∧
      checkingOn drained.fenceList = false := by decide +kernel

theorem witness_DrainFinishFreesTheContext_stopping :
    ({ drained with control := (engineAt .stopping).control }).control.engine = .stopping ∧
      contextsInUse { drained with control := (engineAt .stopping).control } = 1 ∧
      ctx.lost[0].openRecord.isSome = true ∧ unopened.lost[0].openRecord = none := by decide +kernel

theorem test_drain_finish :
    after (exec (.drainFinish 0) drained) (fun t => ((t.contexts[0]).isSome, t.finishedTail, t.events.bits)) =
      some (false, some 0x3000, 1) := by decide +kernel

/-! ## Delivery lanes -/

theorem witness_TakenBlankIsStockedOrFenced :
    takes (reading running) (.blank 0) 0x6000 ∧ (blankImage 1 0x20000 0x5000 1).length = 64 ∧
      imageLink (blankImage 1 0x20000 0x5000 1) = .hold ∧ writePermitted (reading running) 0x6000 64 = true ∧
      checkingOn (reading running).fenceList = false := by
  unfold takes; decide +kernel

theorem test_blank_take_stocks :
    after (exec (.blankTake 0 (.data (blankImage 1 0x20000 0x5000 1))) (reading running))
      (fun t => (t.lanes[0].stock, t.out)) = some ([stocked 0x6000], []) := by decide +kernel

theorem test_a_blank_past_the_top_is_fenced :
    after (exec (.blankTake 0 (.data (blankImage 1 (2 ^ 64 - 65536) 0x5000 1))) (reading running))
      (fun t => (t.lanes[0].stock, t.out.head?, t.lanes[0].filledTail)) =
        some ([], some (.write 0x6028 [5#8]), some 0x6000) := by decide +kernel

/-! ## Arithmetic and invariants -/

theorem witness_CheckIsTheWeightedSum : [1#8, 2#8].length ≤ 2 ∧ ([] : List Byte).length ≤ 0 := by decide

theorem witness_LoadedItemsStaySound : loaded.loadedSound ∧ ∃ t, step { loaded with pending := [.wake] } = .next t := by
  refine ⟨?_, _, rfl⟩
  unfold State.loadedSound State.anchorOk Timers.inRange SteeringTable.sound
  decide +kernel

theorem witness_WalkersAndStoresStaySound : (reading loaded).walkersSound ∧ (reading loaded).storesSound := by
  refine ⟨⟨fun h => absurd h (by decide +kernel), fun _ w a h => ?_, fun h => absurd h (by decide +kernel), by decide +kernel⟩, ?_⟩
  · revert h
    cases w with
    | order => exact fun h => absurd h (by decide +kernel)
    | note => exact fun h => absurd h (by decide +kernel)
    | blank p => exact fun h => absurd h ((by decide +kernel : ∀ p : LaneId, ((reading loaded).walker (.blank p)).state ≠ .next) p)
  unfold State.storesSound
  decide +kernel

theorem witness_TagsStayDistinct : (withCtx ctx running).tagsDistinct := by
  have only : ∀ c : CtxId, ((withCtx ctx running).contexts[c]).isSome = true → c = 0 := by decide +kernel
  intro c d x y hx hy _
  rw [only c (by rw [hx]; rfl), only d (by rw [hy]; rfl)]

theorem witness_ListsStayDistinct : (combining ctx).listsSound := by
  have lists : (combining ctx).solveQueue.Nodup ∧ (combining ctx).steering.waitList.Nodup ∧
      (combining ctx).readyContexts = [] ∧ (combining ctx).arbiter.grantee = some 0 ∧
      (combining ctx).combine = some ctxCombine ∧ ctxCombine.ctx = 0 := by decide +kernel
  obtain ⟨q, w, r, g, o, i⟩ := lists
  refine ⟨q, w, by rw [r]; exact List.nodup_nil, fun c _ => by rw [r]; exact List.not_mem_nil, fun op h => ?_, fun _ => r⟩
  rw [o] at h
  cases h
  rw [g, i]

end Sys2Proof.Tests
end

/-! PROOFS. The field product of R2, through polynomials. A byte stands for the polynomial of its bits; its residue
in the quotient ring by the field polynomial takes ⊕ to the sum, doubling to the product with the root and
the shift-and-add product to the product. Distinct bytes have distinct residues, so the ring's laws come back to
bytes. That no product of non-zero bytes is 0 comes from doubling: its powers from 1 reach every non-zero
byte, and it takes no non-zero byte to 0. -/

namespace Sys2Proof.Proofs

open Sys2Proof Sys2Proof.Machine Polynomial

/-! ## The polynomial of a byte (R1) -/

/-- The polynomial over the two-element field whose coefficient of X^i is bit `i` of the byte (R1). -/
noncomputable def polyOf (a : Byte) : (ZMod 2)[X] :=
  ∑ i ∈ Finset.range 8, if a.getLsbD i = true then (X : (ZMod 2)[X]) ^ i else 0

/-- The field polynomial, 0x11D (R2). -/
noncomputable def fieldPoly : (ZMod 2)[X] := X ^ 8 + X ^ 4 + X ^ 3 + X ^ 2 + 1

@[simp] theorem polyOf_zero : polyOf 0#8 = 0 := by simp [polyOf]

@[simp] theorem polyOf_one : polyOf 1#8 = 1 := by simp [polyOf]

theorem polyOf_xor (a b : Byte) : polyOf (a ^^^ b) = polyOf a + polyOf b := by
  unfold polyOf
  rw [← Finset.sum_add_distrib]
  refine Finset.sum_congr rfl fun i _ => ?_
  rw [BitVec.getLsbD_xor]
  cases a.getLsbD i <;> cases b.getLsbD i <;> simp [CharTwo.add_self_eq_zero]

theorem coeff_polyOf (a : Byte) (i : Nat) : (polyOf a).coeff i = if a.getLsbD i = true then 1 else 0 := by
  have bit (k : Nat) : (if a.getLsbD k = true then (X : (ZMod 2)[X]) ^ k else 0).coeff i =
      if i = k then (if a.getLsbD i = true then 1 else 0) else 0 := by
    by_cases e : i = k
    · subst e; split <;> simp
    · split <;> simp [e, coeff_X_pow]
  simp only [polyOf, finsetSum_coeff, bit, Finset.sum_ite_eq, Finset.mem_range]
  split
  · rfl
  · rw [BitVec.getLsbD_of_ge a i (by omega)]; rfl

theorem polyOf_injective : Function.Injective polyOf := by
  intro a b h
  refine BitVec.eq_of_getLsbD_eq fun i _ => ?_
  have bits : (polyOf a).coeff i = (polyOf b).coeff i := by rw [h]
  rw [coeff_polyOf, coeff_polyOf] at bits
  cases ha : a.getLsbD i <;> cases hb : b.getLsbD i <;> simp [ha, hb] at bits ⊢

theorem fieldPoly_eq : fieldPoly = X ^ 8 + polyOf 0x1D#8 := by
  have low : polyOf 0x1D#8 = 1 + X ^ 2 + X ^ 3 + X ^ 4 := by simp [polyOf, Finset.sum_range_succ]
  rw [fieldPoly, low]
  ring

theorem degree_polyOf_lt (a : Byte) : (polyOf a).degree < 8 :=
  (degree_lt_iff_coeff_zero _ 8).2 fun i hi => by
    rw [coeff_polyOf, BitVec.getLsbD_of_ge a i hi]; rfl

theorem fieldPoly_monic : fieldPoly.Monic :=
  fieldPoly_eq ▸ monic_X_pow_add (degree_polyOf_lt _)

theorem degree_fieldPoly : fieldPoly.degree = 8 := by
  rw [fieldPoly_eq]
  exact (degree_add_eq_left_of_degree_lt (by simpa using degree_polyOf_lt _)).trans (degree_X_pow 8)

theorem polyOf_modByMonic (a : Byte) : polyOf a %ₘ fieldPoly = polyOf a :=
  (modByMonic_eq_self_iff fieldPoly_monic).2 (degree_fieldPoly ▸ degree_polyOf_lt a)

/-! ## Doubling (R2) -/

theorem gfDouble_eq_ite (a : Byte) :
    gfDouble a = if a.getLsbD 7 = true then (a <<< 1) ^^^ 0x1D#8 else a <<< 1 := by
  rw [gfDouble, BitVec.msb_eq_getLsbD_last]
  split <;> simp

/-- Shifting one place toward bit 7 is multiplying by X, but for the bit that leaves. -/
theorem polyOf_shiftLeft_one (a : Byte) :
    polyOf (a <<< 1) + (if a.getLsbD 7 = true then X ^ 8 else 0) = X * polyOf a := by
  have low : polyOf (a <<< 1) = ∑ i ∈ Finset.range 7, if a.getLsbD i = true then X ^ (i + 1) else 0 := by
    rw [polyOf, Finset.sum_range_succ', if_neg (by simp), add_zero]
    refine Finset.sum_congr rfl fun i hi => ?_
    have stays : i + 1 < 8 := Nat.succ_lt_succ (Finset.mem_range.1 hi)
    rw [BitVec.getLsbD_shiftLeft, decide_eq_true stays]
    simp
  rw [low, polyOf, Finset.mul_sum, Finset.sum_range_succ _ 7]
  simp only [mul_ite, mul_zero, ← pow_succ']

/-- Doubling is multiplying by X, less the field polynomial when the degree reaches 8. -/
theorem polyOf_gfDouble (a : Byte) :
    polyOf (gfDouble a) = X * polyOf a + if a.getLsbD 7 = true then fieldPoly else 0 := by
  rw [gfDouble_eq_ite, ← polyOf_shiftLeft_one, fieldPoly_eq]
  split
  · rw [polyOf_xor, add_assoc, CharTwo.add_cancel_left]
  · simp

/-! ## The residue of a byte modulo the field polynomial -/

/-- The residue of a byte's polynomial modulo the field polynomial (R2). -/
noncomputable def residue (a : Byte) : AdjoinRoot fieldPoly := AdjoinRoot.mk fieldPoly (polyOf a)

@[simp] theorem residue_zero : residue 0#8 = 0 := by simp [residue]

@[simp] theorem residue_one : residue 1#8 = 1 := by simp [residue]

@[simp] theorem residue_xor (a b : Byte) : residue (a ^^^ b) = residue a + residue b := by
  simp [residue, polyOf_xor]

@[simp] theorem residue_gfDouble (a : Byte) : residue (gfDouble a) = AdjoinRoot.root fieldPoly * residue a := by
  rw [residue, polyOf_gfDouble, map_add, map_mul, AdjoinRoot.mk_X]
  split <;> simp [residue]

/-- Reduction modulo the field polynomial reads a byte's polynomial back from its residue. -/
theorem modByMonicHom_residue (a : Byte) :
    AdjoinRoot.modByMonicHom fieldPoly_monic (residue a) = polyOf a :=
  (AdjoinRoot.modByMonicHom_mk fieldPoly_monic _).trans (polyOf_modByMonic a)

theorem residue_injective : Function.Injective residue := fun a b h =>
  polyOf_injective (by rw [← modByMonicHom_residue a, h, modByMonicHom_residue])

/-! ## The product (R2) -/

/-- The residue as the sum of the byte's bits, each at its power of the root. -/
theorem residue_eq_sum (b : Byte) :
    residue b = ∑ i ∈ Finset.range 8, if b.getLsbD i = true then AdjoinRoot.root fieldPoly ^ i else 0 := by
  simp [residue, polyOf, apply_ite (AdjoinRoot.mk fieldPoly)]

/-- Shift and add over the `n` low bits of `b` is Horner's rule at the root. -/
theorem residue_shiftAndAdd (a b : Byte) (n : Nat) (acc : Byte) :
    residue ((List.range n).reverse.foldl
      (fun acc i => if b.getLsbD i then gfDouble acc ^^^ a else gfDouble acc) acc) =
    AdjoinRoot.root fieldPoly ^ n * residue acc + residue a *
      ∑ i ∈ Finset.range n, if b.getLsbD i = true then AdjoinRoot.root fieldPoly ^ i else 0 := by
  induction n generalizing acc with
  | zero => simp
  | succ n ih =>
    rw [List.range_succ, List.reverse_concat, List.foldl_cons, ih, Finset.sum_range_succ]
    split
    · rw [residue_xor, residue_gfDouble]; ring
    · rw [residue_gfDouble]; ring

@[simp] theorem residue_gfMul (a b : Byte) : residue (gfMul a b) = residue a * residue b := by
  have h := residue_shiftAndAdd a b 8 0#8
  rwa [residue_zero, mul_zero, zero_add, ← residue_eq_sum] at h

theorem polyOf_gfMul (a b : Byte) : polyOf (gfMul a b) = (polyOf a * polyOf b) %ₘ fieldPoly := by
  rw [← modByMonicHom_residue, residue_gfMul, residue, residue, ← map_mul, AdjoinRoot.modByMonicHom_mk]

theorem gfMul_comm (a b : Byte) : gfMul a b = gfMul b a :=
  residue_injective (by simp [mul_comm])

theorem gfMul_assoc (a b c : Byte) : gfMul (gfMul a b) c = gfMul a (gfMul b c) :=
  residue_injective (by simp [mul_assoc])

theorem gfMul_xor (a b c : Byte) : gfMul a (b ^^^ c) = gfMul a b ^^^ gfMul a c :=
  residue_injective (by simp [mul_add])

@[simp] theorem one_gfMul (a : Byte) : gfMul 1#8 a = a := residue_injective (by simp)

@[simp] theorem zero_gfMul (a : Byte) : gfMul 0#8 a = 0#8 := residue_injective (by simp)

theorem gfDouble_gfMul (a b : Byte) : gfMul (gfDouble a) b = gfDouble (gfMul a b) :=
  residue_injective (by simp [mul_assoc])

/-! ## No zero divisors (R2) -/

theorem gfDouble_ne_zero : ∀ a : Byte, a ≠ 0#8 → gfDouble a ≠ 0#8 := by decide +kernel

/-- The powers of 2 from 0 to 254 reach every non-zero byte: 2 is a primitive element (R3). -/
theorem mem_iterate_gfDouble : ∀ a : Byte, a ≠ 0#8 → a ∈ List.iterate gfDouble 1#8 255 := by decide +kernel

theorem exists_eq_iterate_gfDouble (a : Byte) (ha : a ≠ 0#8) : ∃ e < 255, a = gfDouble^[e] 1#8 :=
  List.mem_iterate.1 (mem_iterate_gfDouble a ha)

theorem iterate_gfDouble_gfMul (e : Nat) (b : Byte) : gfMul (gfDouble^[e] 1#8) b = gfDouble^[e] b := by
  induction e with
  | zero => exact one_gfMul b
  | succ e ih => rw [Function.iterate_succ_apply', Function.iterate_succ_apply', gfDouble_gfMul, ih]

theorem iterate_gfDouble_ne_zero (e : Nat) (b : Byte) (hb : b ≠ 0#8) : gfDouble^[e] b ≠ 0#8 := by
  induction e with
  | zero => exact hb
  | succ e ih => rw [Function.iterate_succ_apply']; exact gfDouble_ne_zero _ ih

theorem gfMul_ne_zero (a b : Byte) (ha : a ≠ 0#8) (hb : b ≠ 0#8) : gfMul a b ≠ 0#8 := by
  obtain ⟨e, -, rfl⟩ := exists_eq_iterate_gfDouble a ha
  rw [iterate_gfDouble_gfMul]
  exact iterate_gfDouble_ne_zero e b hb

/-- Settles O53: the residue map turns the shift-and-add product into the ring's product, and the laws with it. -/
theorem fieldProductIsThePolynomialProduct : Obligations.FieldProductIsThePolynomialProduct := by
  unfold Obligations.FieldProductIsThePolynomialProduct
  refine ⟨polyOf_gfMul, fun a b => ?shiftAndAdd, gfMul_comm, gfMul_assoc, gfMul_xor, one_gfMul, zero_gfMul,
    gfMul_ne_zero⟩
  case shiftAndAdd => simp only [gfMul, gfDouble_eq_ite]

end Sys2Proof.Proofs

/-! PROOFS. A note as read, and the checks of a DATA note (R52, R62, R63). A field is a sum of its bytes, each at its
weight, because it is its first byte and the field one place on; the checks rest on one equation for a context
whose roster holds the note's candidate, with each test said in the manual's terms. -/

namespace Sys2Proof.Proofs

open Sys2Proof Sys2Proof.Machine

/-! ## A field as the sum of its bytes (R168) -/

@[simp] theorem field_zero (image : List Byte) (off : Nat) : field image off 0 = 0 := by
  simp [field, slice, leNat]

/-- A byte past the end of the image counts as 0. -/
theorem field_succ (image : List Byte) (off width : Nat) :
    field image off (width + 1) = (image.getD off 0#8).toNat + 256 * field image (off + 1) width := by
  unfold field slice
  rcases lt_or_ge off image.length with inside | past
  · rw [List.drop_eq_getElem_cons inside, List.getD_eq_getElem _ _ inside, List.take_succ_cons]
    rfl
  · rw [List.drop_eq_nil_of_le past, List.drop_eq_nil_of_le (Nat.le_succ_of_le past), List.getD_eq_default _ _ past]
    simp [leNat]

theorem field_eq_sum (image : List Byte) (off width : Nat) :
    field image off width =
      ((List.range width).map fun i => (image.getD (off + i) 0#8).toNat * 256 ^ i).sum := by
  induction width generalizing off with
  | zero => simp
  | succ width ih =>
    have weight (i : Nat) : 256 * ((image.getD (off + 1 + i) 0#8).toNat * 256 ^ i) =
        (image.getD (off + (i + 1)) 0#8).toNat * 256 ^ (i + 1) := by
      rw [Nat.add_right_comm, Nat.add_assoc]; ring
    simp [field_succ, ih, List.range_succ_eq_map, ← List.sum_map_mul_left, weight, Function.comp_def,
      -List.getD_eq_getElem?_getD]

/-! ## The kind of a note (R170) -/

theorem noteKindOfCode_eq_ite (code : Nat) :
    noteKindOfCode code =
      if code = 1 then .data else if code = 2 then .withdraw else if code = 3 then .cancel else .bad := by
  unfold noteKindOfCode
  split <;> simp_all

/-! ## The candidate of a note (R62, checks 1 and 2) -/

theorem candidate_eq_none (x : Context) (frag : Nat) (absent : ∀ k ∈ x.roster, k.frag ≠ frag) :
    x.candidate frag = none := by
  simpa [Context.candidate] using absent

/-- A context's candidate with a fragment index is the first roster entry that has it. -/
theorem candidate_eq_some (x : Context) (frag : Nat) (pre post : List Candidate) (k : Candidate)
    (roster : x.roster = pre ++ k :: post) (here : k.frag = frag) (first : ∀ j ∈ pre, j.frag ≠ frag) :
    x.candidate frag = some k := by
  simpa [Context.candidate, List.find?_eq_some_iff_append, here] using ⟨pre, ⟨post, roster⟩, first⟩

theorem not_usable_iff (k : Candidate) :
    (!k.usable) = true ↔ k.state = .withdrawn ∨ k.state = .corrupt := by
  unfold Candidate.usable
  cases k.state <;> decide

/-! ## The run of a note (R63; R62, check 5) -/

theorem runIllFormed_iff (n : Note) (windows : Nat) :
    n.runIllFormed windows = true ↔
      n.count = 0 ∨ 1024 < n.count ∨ windows < n.first + n.count ∨ n.dataAddr = 0 ∨
        n.dataAddr % 64 ≠ 0 ∨ n.checksAddr % 4 ≠ 0 := by
  simp [Note.runIllFormed, Config.maxRun, or_assoc]

/-- Two runs overlap at or above the front exactly when they share a window there: the greatest of the three lower
bounds is such a window whenever one exists. -/
theorem liveOverlap_iff (front first count first' count' : Nat) :
    liveOverlap front first count first' count' = true ↔
      ∃ w, front ≤ w ∧ (first ≤ w ∧ w < first + count) ∧ (first' ≤ w ∧ w < first' + count') := by
  rw [liveOverlap, decide_eq_true_iff]
  constructor
  · intro below
    exact ⟨max front (max first first'), by omega⟩
  · rintro ⟨w, atFront, run, run'⟩
    omega

theorem any_liveOverlap_iff {ranges : List Range} {front first count : Nat} :
    ranges.any (fun r => liveOverlap front first count r.first r.count) = true ↔
      ∃ r ∈ ranges, ∃ w, front ≤ w ∧ (first ≤ w ∧ w < first + count) ∧ (r.first ≤ w ∧ w < r.first + r.count) := by
  simp only [List.any_eq_true, liveOverlap_iff]

/-! ## The checks in their order (R62) -/

theorem dataCheck_of_no_candidate (x : Context) (n : Note) (absent : x.candidate n.frag = none) :
    dataCheck x n = some .droppedNotCandidate := by
  simp [dataCheck, absent]

/-- Checks 2 to 6 on the candidate the note names, the first that fails giving the outcome. -/
theorem dataCheck_of_candidate (x : Context) (n : Note) (k : Candidate) (found : x.candidate n.frag = some k) :
    dataCheck x n =
      if !k.usable then some .droppedSourceDead
      else if n.runIllFormed x.windows then some .droppedRange
      else if n.first + n.count ≤ x.front then some .droppedLate
      else if k.ranges.any (fun r => liveOverlap x.front n.first n.count r.first r.count) then
        some .droppedOverlap
      else if Config.rangeCapacity ≤ k.ranges.length then some .droppedFull
      else none := by
  simp only [dataCheck, found]

/-- Settles O29: the fields by `field_eq_sum`, the checks by the equation for a context with and without the note's
candidate; each clause selects one branch of it. -/
theorem dataNoteChecksInOrder : Obligations.DataNoteChecksInOrder := by
  unfold Obligations.DataNoteChecksInOrder
  refine ⟨fun image => ?fields, fun x n => ⟨fun absent => ?absent, fun pre k post roster here first => ?checks⟩⟩
  case fields => simp only [readNote, noteKindOfCode_eq_ite, field_eq_sum]
  case absent => exact dataCheck_of_no_candidate x n (candidate_eq_none x n.frag absent)
  case checks =>
    rw [dataCheck_of_candidate x n k (candidate_eq_some x n.frag pre post k roster here first)]
    simp only [not_usable_iff, runIllFormed_iff]
    refine ⟨fun dead => ?dead, fun live bad => ?range, fun live good late => ?late,
      fun live good early overlap => ?overlap, fun live good early apart full => ?full,
      fun live good early apart room => ?accepted⟩
    case dead => rw [if_pos dead]
    case range => rw [if_neg live, if_pos bad]
    case late => rw [if_neg live, if_neg good, if_pos late]
    case overlap => rw [if_neg live, if_neg good, if_neg early, if_pos (any_liveOverlap_iff.2 overlap)]
    case full =>
      rw [if_neg live, if_neg good, if_neg early, if_neg (mt any_liveOverlap_iff.1 apart)]
      exact if_pos full
    case accepted =>
      rw [if_neg live, if_neg good, if_neg early, if_neg (mt any_liveOverlap_iff.1 apart)]
      exact if_neg (Nat.not_le.2 room)

end Sys2Proof.Proofs

/-! PROOFS. The steering lookup and the groups of lanes (R128, R129). The boundaries run upward from 0 to 65,536, so
each key lies between two neighbours, and between no other two; the lookup's search can stop there only. The two ends
of a group are least lanes of a search; the fallback order, as lane numbers, is two runs of consecutive numbers. -/

namespace Sys2Proof.Proofs

open Sys2Proof Sys2Proof.Machine

/-! ## Searches through the lanes or intervals in their order -/

theorem find?_finRange_eq_some_iff {n : Nat} {p : Fin n → Bool} {i : Fin n} :
    (List.finRange n).find? p = some i ↔ p i = true ∧ ∀ j < i, p j = false := by
  rw [← Fin.find?_eq_find?_finRange, Fin.find?_eq_some_iff]

/-- A search that some `k` satisfies gives the least that does, whatever its default. -/
theorem find?_finRange_getD_least {n : Nat} {p : Fin n → Bool} {k d i : Fin n}
    (hi : i = ((List.finRange n).find? p).getD d) (hk : p k = true) : p i = true ∧ ∀ j < i, p j = false := by
  obtain ⟨m, least⟩ := (Fin.exists_eq_true_iff_exists_minimal_eq_true p).1 ⟨k, hk⟩
  rw [find?_finRange_eq_some_iff.2 least, Option.getD_some] at hi
  rwa [hi]

/-! ## The boundaries of the intervals (R128) -/

@[simp] theorem sep_zero (t : SteeringTable) : t.sep 0 = 0 := by simp [SteeringTable.sep]

theorem sep_of_le (t : SteeringTable) (i : Nat) (h : 32 ≤ i) : t.sep i = 65536 := by
  rw [SteeringTable.sep, if_neg (by omega), if_pos h]

theorem sep_succ (t : SteeringTable) (i : Nat) (h : i < 31) : t.sep (i + 1) = t.seps[i] := by
  rw [SteeringTable.sep, if_neg (by omega), if_neg (by omega), Nat.add_sub_cancel]
  simp [h]

theorem sep_eq_dite (t : SteeringTable) (i : Nat) :
    t.sep i = if h : 1 ≤ i ∧ i ≤ 31 then t.seps[i - 1] else if i = 0 then 0 else 65536 := by
  rcases i with _ | i
  · simp
  · split
    · exact sep_succ t i (by omega)
    · rw [if_neg (by omega)]
      exact sep_of_le t (i + 1) (by omega)

theorem sep_monotone (t : SteeringTable) (below : ∀ i : Fin 31, t.seps[i] < 65536)
    (upward : ∀ i j : Fin 31, i ≤ j → t.seps[i] ≤ t.seps[j]) : Monotone t.sep := by
  refine monotone_nat_of_le_succ fun i => ?_
  rcases i with _ | i
  · simp
  rcases lt_trichotomy i 30 with inside | rfl | past
  · rw [sep_succ t i (by omega), sep_succ t (i + 1) (by omega)]
    exact upward ⟨i, by omega⟩ ⟨i + 1, by omega⟩ (Fin.mk_le_mk.2 (Nat.le_succ i))
  · rw [sep_succ t 30 (by omega), sep_of_le t 32 le_rfl]
    exact (below 30).le
  · rw [sep_of_le t (i + 1) (by omega), sep_of_le t (i + 1 + 1) (by omega)]

/-! ## The interval of a key (R128) -/

theorem coversKey_iff (t : SteeringTable) (i key : Nat) :
    t.coversKey i key = true ↔ t.sep i ≤ key ∧ key < t.sep (i + 1) := by
  simp [SteeringTable.coversKey]

/-- From `f 0` to `f n` some step passes each value in between. -/
theorem exists_step_passing (f : Nat → Nat) (key n : Nat) (bottom : f 0 ≤ key) (top : key < f n) :
    ∃ i < n, f i ≤ key ∧ key < f (i + 1) := by
  induction n with
  | zero => omega
  | succ n ih =>
    by_cases early : key < f n
    · obtain ⟨i, lt, passes⟩ := ih early
      exact ⟨i, Nat.lt_succ_of_lt lt, passes⟩
    · exact ⟨n, Nat.lt_succ_self n, Nat.le_of_not_lt early, top⟩

theorem exists_coversKey (t : SteeringTable) (key : Nat) (h : key < 65536) :
    ∃ i : Fin 32, t.coversKey i.val key = true := by
  obtain ⟨i, lt, passes⟩ := exists_step_passing t.sep key 32 (by simp) (by rwa [sep_of_le t 32 le_rfl])
  exact ⟨⟨i, lt⟩, (coversKey_iff t i key).2 passes⟩

/-- Over boundaries that do not decrease, distinct intervals share no key. -/
theorem coversKey_unique {t : SteeringTable} (mono : Monotone t.sep) {i j key : Nat}
    (hi : t.coversKey i key = true) (hj : t.coversKey j key = true) : i = j := by
  by_contra distinct
  exact Set.disjoint_left.1 (mono.pairwise_disjoint_on_Ico_succ distinct)
    ((coversKey_iff t i key).1 hi) ((coversKey_iff t j key).1 hj)

theorem lookup_of_coversKey {t : SteeringTable} (mono : Monotone t.sep) {i : Fin 32} {key : Nat}
    (h : t.coversKey i.val key = true) : t.lookup key = some t.intervals[i] := by
  have found : (List.finRange 32).find? (fun j => t.coversKey j.val key) = some i := by
    refine find?_finRange_eq_some_iff.2 ⟨h, fun j lt => ?_⟩
    rw [Bool.eq_false_iff]
    exact fun hj => lt.ne (Fin.ext (coversKey_unique mono hj h))
  rw [SteeringTable.lookup, found, Option.map_some]

/-- Settles O40: the boundaries are monotone from 0 to 65,536, so some interval covers a key and no other does. -/
theorem everyKeyHasOneInterval : Obligations.EveryKeyHasOneInterval := by
  unfold Obligations.EveryKeyHasOneInterval
  intro t below upward sep covers
  have mono : Monotone t.sep := sep_monotone t below upward
  have sep_eq : ∀ i, sep i = t.sep i := fun i => (sep_eq_dite t i).symm
  have covers_iff : ∀ (i : Fin 32) (key : Nat), covers i key ↔ t.coversKey i.val key = true := fun i key => by
    rw [coversKey_iff, ← sep_eq, ← sep_eq]
  simp only [covers_iff, sep_eq]
  refine ⟨fun key bound => ⟨?exactlyOne, fun i => lookup_of_coversKey mono⟩, fun i null key => ?null, ?last,
    fun zero key bound => lookup_of_coversKey (i := 31) mono ?allZero⟩
  case exactlyOne =>
    obtain ⟨i, hi⟩ := exists_coversKey t key bound
    exact ⟨i, hi, fun j hj => Fin.ext (coversKey_unique mono hj hi)⟩
  case null =>
    rw [coversKey_iff, null]
    exact fun ⟨low, high⟩ => absurd high (Nat.not_lt.2 low)
  case last =>
    have top : t.sep 31 = t.seps[30] := sep_succ t 30 (by omega)
    exact (coversKey_iff t 31 65535).2 ⟨top ▸ Nat.le_of_lt_succ (below 30), by rw [sep_of_le t 32 le_rfl]; omega⟩
  case allZero =>
    have top : t.sep 31 = 0 := (sep_succ t 30 (by omega)).trans (zero 30)
    exact (coversKey_iff t 31 key).2 ⟨top ▸ Nat.zero_le key, by rwa [sep_of_le t 32 le_rfl]⟩

/-! ## The group of a lane (R129) -/

theorem endsGroup_iff (t : SteeringTable) (q : LaneId) : t.endsGroup q = true ↔ t.groupEnd[q] = true ∨ q = 31 := by
  simp [SteeringTable.endsGroup]

/-- The last lane of a group is the first at or above the lane that ends a group. -/
theorem groupLast_spec (t : SteeringTable) (p : LaneId) :
    p ≤ t.groupLast p ∧ t.endsGroup (t.groupLast p) = true ∧
      ∀ q, p ≤ q → q < t.groupLast p → ¬t.endsGroup q = true := by
  have top : (decide (p ≤ 31) && t.endsGroup 31) = true := by
    rw [decide_eq_true (show p ≤ 31 from Fin.le_last p), Bool.true_and, endsGroup_iff]
    exact Or.inr rfl
  obtain ⟨found, least⟩ := find?_finRange_getD_least (i := t.groupLast p) rfl top
  rw [Bool.and_eq_true, decide_eq_true_iff] at found
  obtain ⟨above, ends⟩ := found
  refine ⟨above, ends, fun q le lt => ?_⟩
  simpa [le] using least q lt

/-- The search of `groupFirst` stops at the lowest lane with no group end from it up to the lane. -/
theorem groupFirst_least (t : SteeringTable) (p : LaneId) :
    (∀ r, t.groupFirst p ≤ r → r < p → ¬t.endsGroup r = true) ∧
      ∀ q < t.groupFirst p, ∃ r, q ≤ r ∧ r < p ∧ t.endsGroup r = true := by
  have clear_iff (q : LaneId) :
      ((List.finRange 32).all fun r => !(decide (q ≤ r) && decide (r < p) && t.endsGroup r)) = true ↔
        ∀ r, q ≤ r → r < p → ¬t.endsGroup r = true := by
    simp only [List.all_eq_true, List.mem_finRange, true_imp_iff, Bool.not_eq_true', ← Bool.not_eq_true,
      Bool.and_eq_true, decide_eq_true_iff, not_and, and_imp]
  have own := (clear_iff p).2 fun r le lt => absurd lt le.not_gt
  obtain ⟨found, least⟩ := find?_finRange_getD_least (i := t.groupFirst p) rfl own
  refine ⟨(clear_iff _).1 found, fun q lt => ?_⟩
  have blocked := mt (clear_iff q).2 (Bool.eq_false_iff.1 (least q lt))
  push Not at blocked
  exact blocked

/-- The first lane of a group is at or below the lane, and is lane 0 or stands just above a lane that ends a group. -/
theorem groupFirst_spec (t : SteeringTable) (p : LaneId) :
    t.groupFirst p ≤ p ∧ (∀ q, t.groupFirst p ≤ q → q < p → ¬t.endsGroup q = true) ∧
      (t.groupFirst p = 0 ∨ ∃ q : LaneId, q.val + 1 = (t.groupFirst p).val ∧ t.endsGroup q = true) := by
  obtain ⟨clear, least⟩ := groupFirst_least t p
  refine ⟨?below, clear, ?start⟩
  case below =>
    by_contra above
    obtain ⟨r, le, lt, -⟩ := least p (not_le.1 above)
    exact absurd lt le.not_gt
  case start =>
    refine or_iff_not_imp_left.2 fun positive => ?_
    have nonzero : (t.groupFirst p).val ≠ 0 := fun h => positive (Fin.ext h)
    obtain ⟨r, le, lt, ends⟩ := least ⟨(t.groupFirst p).val - 1, by omega⟩ (Nat.sub_one_lt nonzero)
    have short : r < t.groupFirst p := not_le.1 fun h => clear r h lt ends
    simp only [Fin.le_def, Fin.lt_def] at le short
    exact ⟨r, by omega, ends⟩

/-! ## The fallback order (R129) -/

/-- The lanes from `a` to below `b`, in order, are the consecutive numbers from `a`. -/
theorem map_val_filter_finRange {n a b : Nat} (hb : b ≤ n) (p : Fin n → Bool)
    (hp : ∀ q, p q = true ↔ a ≤ q.val ∧ q.val < b) :
    ((List.finRange n).filter p).map Fin.val = List.range' a (b - a) := by
  refine List.SortedLT.eq_of_mem_iff ?sorted (List.sortedLT_range' a _ one_ne_zero) fun k => ?mem
  case sorted =>
    exact Fin.val_strictMono.sortedLT_listMap.2 ((List.sortedLT_finRange n).pairwise.filter p).sortedLT
  case mem =>
    simp only [List.mem_map, List.mem_filter, List.mem_finRange, true_and, hp, List.mem_range'_1]
    constructor
    · rintro ⟨q, range, rfl⟩
      omega
    · intro range
      exact ⟨⟨k, by omega⟩, by simp only; omega, rfl⟩

theorem map_val_fallbackOrder (p first last : LaneId) :
    (fallbackOrder p first last).map Fin.val =
      List.range' p.val (last.val + 1 - p.val) ++ List.range' first.val (p.val - first.val) := by
  rw [fallbackOrder, List.map_append,
    map_val_filter_finRange (a := p.val) (b := last.val + 1) last.isLt _ ?upward,
    map_val_filter_finRange (a := first.val) (b := p.val) p.isLt.le _ ?wrapped]
  case upward => simp
  case wrapped => simp

theorem fallbackOrder_self (p : LaneId) : fallbackOrder p p p = [p] := by
  refine Fin.val_injective.list_map ?_
  simp [map_val_fallbackOrder]

section
variable {p first last : LaneId} (low : first ≤ p) (high : p ≤ last)
include low high

theorem length_fallbackOrder : (fallbackOrder p first last).length = last.val - first.val + 1 := by
  rw [Fin.le_def] at low high
  rw [← List.length_map Fin.val, map_val_fallbackOrder]
  simp only [List.length_append, List.length_range']
  omega

theorem mem_fallbackOrder (q : LaneId) : q ∈ fallbackOrder p first last ↔ first ≤ q ∧ q ≤ last := by
  rw [Fin.le_def] at low high
  rw [← List.mem_map_of_injective Fin.val_injective, map_val_fallbackOrder]
  simp only [List.mem_append, List.mem_range'_1, Fin.le_def]
  omega

/-- The lanes of the order are the group's, counted cyclically from the preferred one. -/
theorem getElem_fallbackOrder (i : Nat) (h : i < (fallbackOrder p first last).length) :
    (fallbackOrder p first last)[i].val =
      first.val + (p.val - first.val + i) % (last.val - first.val + 1) := by
  have bound : i < last.val - first.val + 1 := length_fallbackOrder low high ▸ h
  rw [Fin.le_def] at low high
  have numbers : (fallbackOrder p first last)[i].val = ((fallbackOrder p first last).map Fin.val)[i]'(by simpa) := by
    simp
  simp only [numbers, map_val_fallbackOrder, List.getElem_append, List.length_range', List.getElem_range', one_mul]
  split
  case isTrue upward =>
    rw [Nat.mod_eq_of_lt (by omega)]
    omega
  case isFalse wrapped =>
    rw [Nat.mod_eq_sub_mod (by omega), Nat.mod_eq_of_lt (by omega)]
    omega

end

theorem nodup_fallbackOrder (p first last : LaneId) : (fallbackOrder p first last).Nodup := by
  refine List.Nodup.of_map Fin.val ?_
  rw [map_val_fallbackOrder, List.nodup_append']
  refine ⟨List.nodup_range', List.nodup_range', fun k upward wrapped => ?_⟩
  rw [List.mem_range'_1] at upward wrapped
  omega

/-- Settles O41: the group's ends by the specifications of the two searches, the order by its lane numbers. -/
theorem groupsAndFallbackOrder : Obligations.GroupsAndFallbackOrder := by
  unfold Obligations.GroupsAndFallbackOrder
  intro t p
  simp only [← endsGroup_iff]
  obtain ⟨high, ends, nearest⟩ := groupLast_spec t p
  obtain ⟨low, clear, start⟩ := groupFirst_spec t p
  refine ⟨⟨high, ends, nearest⟩, ⟨low, clear, start⟩, nodup_fallbackOrder _ _ _, mem_fallbackOrder low high,
    length_fallbackOrder low high, getElem_fallbackOrder low high, fun single => ?single,
    fun unset => ⟨?zero, ?top⟩⟩
  case single =>
    have first_eq : t.groupFirst p = p := le_antisymm low (single ▸ high)
    rw [← single, first_eq, fallbackOrder_self]
  case zero =>
    refine start.resolve_right fun ⟨q, next, endsQ⟩ => ?_
    have top : q = 31 := ((endsGroup_iff t q).1 endsQ).resolve_left (by simp [unset q])
    have inRange := (t.groupFirst p).isLt
    rw [← next, top] at inRange
    exact absurd inRange (by decide)
  case top =>
    exact ((endsGroup_iff t _).1 ends).resolve_left (by simp [unset (t.groupLast p)])

end Sys2Proof.Proofs

/-! PROOFS. The command table (R154). START and the three commands of a walking engine each test the engine state once
and otherwise leave the state as it is. After a STOP the engine is STOPPING, STOPPED or HALTED because the units' work
can change the engine state in one way only, a halt, and the end of STOPPING enters STOPPED alone; a WAKE's walkers do
not touch the control unit. A register write is sorted by its offset and the code in byte 0. -/

namespace Sys2Proof.Proofs

open Sys2Proof Sys2Proof.Machine

/-! ## The commands, by what they test -/

theorem exec_start (s : State) : exec .start s = .next
    (if s.control.engine = .stopped then
      if s.control.anchor = 0 then rejectStart .anchorRead none s
      else issueRead s.control.anchor.toNat 4096
        { s with control := { s.control with engine := .starting, startReadAt := some s.now } }
    else s) := rfl

theorem exec_stop (s : State) : exec .stop s = .next
    (if s.walking then inOrder [abortContexts, emptyPen, finishAllDue, concludeStop] (enterStopping s) else s) := rfl

theorem exec_reload (s : State) : exec .reload s = .next
    (if s.walking && s.control.reloadAt.isNone then
      issueRead s.control.anchor.toNat 4096 { s with control := { s.control with reloadAt := some s.now } }
    else s) := rfl

theorem exec_wake (s : State) : exec .wake s = .next
    (if s.walking then
      allWalkers.foldl (fun t w => wakeWalker w t) (if s.control.engine = .dozing then leaveDoze s else s)
    else s) := rfl

theorem walking_iff (s : State) :
    s.walking = true ↔ s.control.engine = .running ∨ s.control.engine = .dozing := by
  simp [State.walking]

/-! ## What leaves the control unit alone -/

@[simp] theorem raise_control (b : EventBit) (s : State) : (raise b s).control = s.control := by
  obtain ⟨ev, silent | message⟩ := raise_spec s b
  · rw [silent]
  · rw [message]

@[simp] theorem issueRead_control (a len : Nat) (s : State) : (issueRead a len s).control = s.control := rfl

@[simp] theorem issueRevisit_control (w : WalkerId) (s : State) : (issueRevisit w s).control = s.control := by
  unfold issueRevisit
  split <;> simp

@[simp] theorem wakeWalker_control (w : WalkerId) (s : State) : (wakeWalker w s).control = s.control := by
  unfold wakeWalker
  cases (s.walker w).state with
  | held => exact issueRevisit_control w s
  | revisiting => exact setWalker_control s w _
  | next | reading | idle => rfl

theorem wakeWalkers_control (ws : List WalkerId) (s : State) :
    (ws.foldl (fun t w => wakeWalker w t) s).control = s.control :=
  List.foldlRecOn ws _ (motive := fun t => t.control = s.control) rfl
    fun t kept w _ => (wakeWalker_control w t).trans kept

/-! ## START (R156) -/

/-- An accepted START reads the anchor block in STARTING, or is rejected at once with ANCHOR_READ. -/
theorem exec_start_of_stopped (s : State) (stopped : s.control.engine = .stopped) :
    ∃ t, exec .start s = .next t ∧ (t.control.engine = .starting ∨ t.control.cause = .anchorRead) := by
  refine ⟨_, exec_start s, ?_⟩
  rw [if_pos stopped]
  split
  · exact .inr (by simp [rejectStart])
  · exact .inl (by simp)

/-! ## STOP (R159) -/

/-- Where a STOP can leave the engine. -/
def StopEntered (s : State) : Prop :=
  s.control.engine = .stopping ∨ s.control.engine = .stopped ∨ s.control.engine = .halted

/-- The units' work changes the engine state by a halt alone. -/
theorem stopEntered_of_frame {s t : State} (frame : UnitFrame s t) (entered : StopEntered s) : StopEntered t := by
  rcases frame.run with same | ⟨halted, -⟩
  · have engine : t.control.engine = s.control.engine := congrArg Prod.fst same
    rwa [StopEntered, engine]
  · exact .inr (.inr halted)

theorem abortContexts_frame (s : State) : UnitFrame s (abortContexts s) :=
  foldl_frame (fun t c => (modifyContext_frame c _ t).trans (enterDraining_frame c _ _ _)) _ s

theorem dropPenFront_frame (s : State) : UnitFrame s (dropPenFront s) := by
  unfold dropPenFront
  split
  · exact UnitFrame.refl s
  · exact (writeNoteOutcome_frame _ _ _).after rfl rfl rfl

theorem emptyPen_frame (s : State) : UnitFrame s (emptyPen s) := by
  refine inOrder_frame (fun f mem t => ?_) s
  obtain ⟨_, -, rfl⟩ := List.mem_map.1 mem
  exact dropPenFront_frame t

theorem finishAllDue_frame (s : State) : UnitFrame s (finishAllDue s) := by
  refine inOrder_frame (fun f mem t => ?_) s
  obtain ⟨c, -, rfl⟩ := List.mem_map.1 mem
  exact finishIfDue_frame c t

theorem enterStopped_stopEntered (s : State) (entered : StopEntered s) : StopEntered (enterStopped s) := by
  unfold enterStopped
  split
  · exact .inr (.inl (by simp))
  · exact entered

theorem concludeStop_stopEntered (s : State) (entered : StopEntered s) : StopEntered (concludeStop s) := by
  unfold concludeStop
  split
  · refine inOrder_keeps (fun f mem t kept => ?_) entered
    rcases List.mem_append.1 mem with unused | last
    · obtain ⟨p, -, rfl⟩ := List.mem_map.1 unused
      exact stopEntered_of_frame (linkUnusedOn_frame p t) kept
    · obtain rfl := List.mem_singleton.1 last
      exact enterStopped_stopEntered t kept
  · exact entered

theorem exec_stop_of_walking (s : State) (walking : s.walking = true) :
    ∃ t, exec .stop s = .next t ∧ StopEntered t := by
  refine ⟨_, exec_stop s, ?_⟩
  rw [if_pos walking]
  refine inOrder_keeps (fun f mem t kept => ?_) (.inl rfl)
  simp only [List.mem_cons, List.not_mem_nil, or_false] at mem
  rcases mem with rfl | rfl | rfl | rfl
  · exact stopEntered_of_frame (abortContexts_frame t) kept
  · exact stopEntered_of_frame (emptyPen_frame t) kept
  · exact stopEntered_of_frame (finishAllDue_frame t) kept
  · exact concludeStop_stopEntered t kept

/-! ## RELOAD and WAKE (R158, R161) -/

/-- An accepted RELOAD has a read in flight: its own, or the one it is merged into. -/
theorem exec_reload_of_walking (s : State) (walking : s.walking = true) :
    ∃ t, exec .reload s = .next t ∧ t.control.reloadAt.isSome = true := by
  refine ⟨_, exec_reload s, ?_⟩
  rw [walking, Bool.true_and]
  split
  case isTrue => simp
  case isFalse inFlight => simpa [Option.isSome_iff_ne_none] using inFlight

theorem exec_wake_of_walking (s : State) (walking : s.walking = true) :
    ∃ t, exec .wake s = .next t ∧ t.control.engine = .running := by
  refine ⟨_, exec_wake s, ?_⟩
  rw [if_pos walking, wakeWalkers_control]
  split
  case isTrue => rfl
  case isFalse awake => exact ((walking_iff s).1 walking).resolve_right awake

/-! ## Register writes (R154, R155) -/

theorem exec_ignored_write {offset width value : Nat} (s : State) (bound : value < 256 ^ width)
    (ignored : registerWriteCommand offset width value = .ignoredRegisterWrite offset width value) :
    exec (registerWriteCommand offset width value) s = .next s := by
  obtain ⟨wellFormed, -⟩ := Laws.RegisterWrites.of_cases _ offset width value bound ignored
  rw [ignored]
  exact if_pos wellFormed

theorem commandOfCode_eq_ite (code : Nat) :
    commandOfCode code =
      if code = 1 then some .start else if code = 2 then some .stop else if code = 3 then some .reload
      else if code = 4 then some .wake else if code = 5 then some .reset else none := by
  unfold commandOfCode
  split <;> simp_all

/-- A write of COMMAND carries the code in its byte 0, whatever its other bytes. -/
theorem registerWriteCommand_at_command {width : Nat} (served : width = 4 ∨ width = 8) (value : Nat) :
    registerWriteCommand 0x08 width value =
      (commandOfCode (value % 256)).getD (.ignoredRegisterWrite 0x08 width value) := by
  rcases served with rfl | rfl <;> rfl

theorem registerWriteCommand_past_command {offset : Nat} (past : 0x10 ≤ offset) (width value : Nat) :
    registerWriteCommand offset width value = .ignoredRegisterWrite offset width value := by
  unfold registerWriteCommand
  rw [if_neg (by omega : ¬(offset = 0x00 ∧ width = 8)), if_neg (by omega : ¬offset = 0x08), ite_self]

/-! ## Reads of COMMAND (R154) -/

theorem registerRead_at_command (s : State) {offset : Nat} (at_command : offset / 8 = 1) (width : Nat) :
    registerRead s offset width = 0 := by
  have word : registerValue s (offset / 8 * 8) = 0 := by rw [at_command]; rfl
  simp [registerRead, word]

/-- Settles O6: each command by its test of the engine state, a write by its offset and code. -/
theorem commandsByEngineState : Obligations.CommandsByEngineState := by
  unfold Obligations.CommandsByEngineState
  intro s
  refine ⟨fun busy => ?startIgnored, exec_start_of_stopped s, fun awake undozed => ?ignored, fun running => ?accepted,
    ⟨_, rfl, rfl⟩, fun width value served bound => ⟨?table, fun other => ?otherCode, fun offset past => ?past⟩,
    registerRead_at_command s rfl 8, registerRead_at_command s rfl 4, registerRead_at_command s rfl 4⟩
  case startIgnored => rw [exec_start, if_neg busy]
  case ignored =>
    have still : s.walking = false := Bool.eq_false_iff.2 fun walking =>
      ((walking_iff s).1 walking).elim awake undozed
    simp [exec_stop, exec_reload, exec_wake, still]
  case accepted =>
    have walking := (walking_iff s).2 running
    exact ⟨exec_stop_of_walking s walking, exec_reload_of_walking s walking, exec_wake_of_walking s walking⟩
  case table =>
    rw [registerWriteCommand_at_command served, commandOfCode_eq_ite]
    simp only [apply_ite (Option.getD · (Instr.ignoredRegisterWrite 0x08 width value)), Option.getD_some,
      Option.getD_none]
  case otherCode =>
    have unknown : commandOfCode (value % 256) = none := by
      rw [commandOfCode_eq_ite, if_neg, if_neg, if_neg, if_neg, if_neg] <;> omega
    refine exec_ignored_write s bound ?_
    rw [registerWriteCommand_at_command served, unknown, Option.getD_none]
  case past => exact exec_ignored_write s bound (registerWriteCommand_past_command past width value)

end Sys2Proof.Proofs

/-! PROOFS. What the machine can do, act by act. Every operation of the units, and every command, is a run of acts of a
few kinds; one lemma per operation says which kinds. What an act of each kind keeps is then said once, and an
invariant of all operations, or the frame of one, is a case split over the kinds instead of a walk through the
operations. -/

namespace Sys2Proof.Proofs

open Sys2Proof Sys2Proof.Machine

-- In order: declarations that run `decide` side by side wait for each other, each on a thread of its own.
set_option Elab.async false

/-! ## The kinds of acts -/

/-- What one act changes. -/
inductive Kind where
  /-- the clock moves on -/
  | clock
  /-- reads go out -/
  | read
  /-- a permitted write goes out -/
  | write
  /-- a halt cause is raised -/
  | halt
  /-- the event unit, with its messages and replies -/
  | event
  /-- the engine state, its cause, the anchor reads in flight, the idle deadline and its mark -/
  | engine
  /-- the walkers -/
  | walkers
  /-- a context in use changes and keeps its tag -/
  | edit
  /-- a context returns to FREE -/
  | free
  /-- a FREE context is filled under a tag that no other holds -/
  | accept
  /-- the marks of the blanks in stock -/
  | marks
  /-- a blank leaves its stock -/
  | unstock
  /-- a blank joins its stock -/
  | stock
  /-- the tails of the 6210's chains -/
  | tails
  /-- the solve queue, kept free of repeats -/
  | queue
  /-- the solve in flight -/
  | solver
  /-- the steering wait list, kept free of repeats -/
  | wait
  /-- the lanes for which a retry is due -/
  | retry
  /-- the LFSR, kept off 0 -/
  | lfsr
  /-- contexts leave the ready lists or move on them -/
  | ready
  /-- a context that is neither listed nor the grantee joins a ready list -/
  | join
  /-- the former grantee joins a ready list -/
  | rejoin
  /-- the grantee and its turn -/
  | turn
  /-- the combine in flight -/
  | combine
  /-- notes leave the pen -/
  | drop
  /-- a note enters the pen -/
  | pen
  /-- the tables of an accepted image -/
  | load
  /-- the fence lock -/
  | lock
  /-- the ANCHOR register -/
  | anchor
  /-- a reset -/
  | reset
  deriving DecidableEq

/-- Under a loaded idle-to-doze value of 0 no idle deadline runs and its mark is clear (R160). -/
def idleClear (s : State) : Prop :=
  s.control.timers.idle = 0 → s.control.idleDeadline = none ∧ s.control.idleElapsed = false

/-- An image that an anchor block of 4096 bytes can give, and that passes the checks (R156). -/
def Loadable (s : State) (img : AnchorImage) : Prop :=
  (∃ image, img = readAnchor image) ∧ imageFault s img = none

/-- One act of a kind. -/
inductive Act : Kind → State → State → Prop
  | clock (s : State) (u : Nat) (later : s.now ≤ u) : Act .clock s { s with now := u }
  | read (s : State) (a len : Nat) : Act .read s (issueRead a len s)
  | write (s : State) (a : Nat) (bytes : List Byte) (permitted : writePermitted s a bytes.length = true) :
      Act .write s (emit (writeRequests a bytes) s)
  | halt (s : State) (c : Cause) : Act .halt s (halt c s)
  | event (s : State) (ev : EventUnit) (os : List Output) (silent : ∀ o ∈ os, o = .msi ∨ ∃ v, o = .reply v) :
      Act .event s { s with events := ev, out := s.out ++ os }
  | engine (s : State) (e : Engine) (k : Cause) (at₀ at₁ d : Option Nat) (m : Bool)
      (clear : idleClear s → s.control.timers.idle = 0 → d = none ∧ m = false) :
      Act .engine s { s with control := { s.control with
        engine := e, cause := k, startReadAt := at₀, reloadAt := at₁, idleDeadline := d, idleElapsed := m } }
  | walkers (s : State) (o n : Walker) (b : Vector Walker 32)
      (room : ∀ p : LaneId, b[p].state = .reading →
        s.blankWalkers[p].state = .reading ∨ s.lanes[p].stock.length < Config.stockCapacity) :
      Act .walkers s { s with orderWalker := o, noteWalker := n, blankWalkers := b }
  | edit (s : State) (c : CtxId) (x y : Context) (used : s.contexts[c] = some x) (tag : y.tag = x.tag) :
      Act .edit s (setContext c (some y) s)
  | free (s : State) (c : CtxId) : Act .free s (setContext c none s)
  | accept (s : State) (c : CtxId) (x : Context) (unused : s.contexts[c] = none)
      (fresh : ∀ (d : CtxId) (y : Context), s.contexts[d] = some y → y.tag ≠ x.tag) :
      Act .accept s (setContext c (some x) s)
  | marks (s : State) (ls : Vector Lane 32)
      (same : ∀ p : LaneId, ls[p].stock.map StockEntry.blank = s.lanes[p].stock.map StockEntry.blank ∧
        ls[p].filledTail = s.lanes[p].filledTail ∧ ls[p].notify = s.lanes[p].notify) :
      Act .marks s { s with lanes := ls }
  | unstock (s : State) (p : LaneId) (k : StockEntry) : Act .unstock s (modifyStock p (fun es => es.erase k) s)
  | stock (s : State) (p : LaneId) (k : StockEntry) : Act .stock s (modifyStock p (fun es => es ++ [k]) s)
  | tails (s : State) (ls : Vector Lane 32) (f : Option Nat)
      (same : ∀ p : LaneId, ls[p].stock = s.lanes[p].stock ∧ ls[p].notify = s.lanes[p].notify) :
      Act .tails s { s with lanes := ls, finishedTail := f }
  | queue (s : State) (q : List CtxId) (nodup : s.solveQueue.Nodup → q.Nodup) : Act .queue s { s with solveQueue := q }
  | solver (s : State) (v : Option Solve) : Act .solver s { s with solve := v }
  | wait (s : State) (l : List CtxId) (nodup : s.steering.waitList.Nodup → l.Nodup) :
      Act .wait s { s with steering := { s.steering with waitList := l } }
  | retry (s : State) (r : List LaneId) : Act .retry s { s with steering := { s.steering with retryDue := r } }
  | lfsr (s : State) (v : BitVec 16) (nonzero : s.steering.lfsr ≠ 0 → v ≠ 0) :
      Act .lfsr s { s with steering := { s.steering with lfsr := v } }
  | ready (s : State) (r : Vector (List CtxId) 4)
      (nodup : s.readyContexts.Nodup → r.toList.flatten.Nodup)
      (within : ∀ c ∈ r.toList.flatten, c ∈ s.readyContexts) :
      Act .ready s { s with arbiter := { s.arbiter with ready := r } }
  | join (s : State) (c : CtxId) (u : Nat) (unlisted : onReadyList s c = false)
      (ungranted : s.arbiter.grantee ≠ some c) : Act .join s (makeReady c u s)
  | rejoin (s : State) (c : CtxId) (u : Nat) : Act .rejoin s (makeReady c u s)
  | turn (s : State) (g : Option CtxId) (n q : Nat) :
      Act .turn s { s with arbiter := { s.arbiter with grantee := g, turnCount := n, turnQuota := q } }
  | combine (s : State) (op : Option Combine) : Act .combine s { s with combine := op }
  | drop (s : State) (l : List PenEntry) (sub : l.Sublist s.pen) : Act .drop s { s with pen := l }
  | pen (s : State) (e : PenEntry) : Act .pen s { s with pen := s.pen ++ [e] }
  | load (s : State) (img : AnchorImage) (loadable : Loadable s img) : Act .load s (loadTables img s)
  | lock (s : State) (b : Bool) : Act .lock s { s with control := { s.control with fenceLock := b } }
  | anchor (s : State) (v : BitVec 64) (aligned : v.toNat % 4096 = 0) :
      Act .anchor s { s with control := { s.control with anchor := v } }
  | reset (s : State) (a : BitVec 64) (f : Vector FenceWindow 4) (l : Bool)
      (anchor : a = 0 ∨ a = s.control.anchor)
      (fences : f = State.reset.control.fences ∨ f = s.control.fences) :
      Act .reset s { resetBlocks s with control :=
        { State.reset.control with anchor := a, fences := f, fenceLock := l } }

/-! ## Runs of acts -/

/-- From `s` to `t` by acts of these kinds alone. -/
def Work (K : List Kind) : State → State → Prop := Relation.ReflTransGen fun s t => ∃ k ∈ K, Act k s t

section
variable {K L : List Kind} {s t u : State}

theorem Work.refl (s : State) : Work K s s := Relation.ReflTransGen.refl

theorem Work.trans (a : Work K s t) (b : Work K t u) : Work K s u := Relation.ReflTransGen.trans a b

theorem Work.act {k : Kind} (a : Act k s t) (mem : k ∈ K := by decide) : Work K s t :=
  Relation.ReflTransGen.single ⟨k, mem, a⟩

theorem Work.mono (w : Work K s t) (sub : ∀ k ∈ K, k ∈ L := by decide) : Work L s t :=
  Relation.ReflTransGen.mono (fun _ _ ⟨k, mem, a⟩ => ⟨k, sub k mem, a⟩) _ _ w

/-- What every act of these kinds keeps, a run of them keeps. -/
theorem Work.keeps {P : State → Prop} (w : Work K s t) (h : ∀ k ∈ K, ∀ a b, Act k a b → P a → P b) (h0 : P s) : P t := by
  induction w with
  | refl => exact h0
  | tail _ step ih =>
    obtain ⟨k, mem, a⟩ := step
    exact h k mem _ _ a ih

/-- A part of the state that no act of these kinds changes. -/
theorem Work.same {α : Type} (f : State → α) (w : Work K s t) (h : ∀ k ∈ K, ∀ a b, Act k a b → f b = f a) : f t = f s :=
  w.keeps (P := fun u => f u = f s) (fun k mem a b act => (h k mem a b act).trans) rfl

theorem foldl_work {α : Type} {f : State → α → State} (h : ∀ t a, Work K t (f t a)) (l : List α) (s : State) :
    Work K s (l.foldl f s) := by
  induction l generalizing s with
  | nil => exact Work.refl s
  | cons a l ih => exact (h s a).trans (ih _)

theorem inOrder_work {fs : List (State → State)} (h : ∀ f ∈ fs, ∀ t, Work K t (f t)) (s : State) :
    Work K s (inOrder fs s) :=
  inOrder_keeps (P := Work K s) (fun f hf t ht => ht.trans (h f hf t)) (Work.refl s)

theorem inOrder_cons_work {f : State → State} {fs : List (State → State)} (h : ∀ t, Work K t (f t))
    (hs : ∀ t, Work K t (inOrder fs t)) (s : State) : Work K s (inOrder (f :: fs) s) := by
  rw [inOrder_cons]
  split
  · exact hs s
  · exact (h s).trans (hs _)

theorem inOrder_one_work {f : State → State} (h : ∀ t, Work K t (f t)) (s : State) : Work K s (inOrder [f] s) :=
  inOrder_cons_work h Work.refl s

end

/-! ## Events, halts, writes -/

theorem raise_work (b : EventBit) (s : State) : Work [.event] s (raise b s) := by
  obtain ⟨ev, e | e⟩ := raise_spec s b <;> rw [e]
  · exact Work.act (by simpa using Act.event s ev [] (by simp))
  · exact Work.act (Act.event s ev [.msi] (by simp))

/-- The kinds of a fence-checked write. -/
abbrev writeKinds : List Kind := [.write, .halt]

theorem writeHost_work (c : Cause) (a : Nat) (bytes : List Byte) (s : State) :
    Work writeKinds s (writeHost c a bytes s) := by
  rcases writeHost_spec s c a bytes with ⟨permitted, e⟩ | ⟨_, e⟩ <;> rw [e]
  · exact Work.act (.write s a bytes permitted)
  · exact Work.act (.halt s c)

/-! ## Contexts, queues and lists -/

theorem modifyContext_work (c : CtxId) (f : Context → Context) (s : State)
    (tag : ∀ x, (f x).tag = x.tag := by exact fun _ => rfl) : Work [.edit] s (modifyContext c f s) := by
  unfold modifyContext
  split
  · exact Work.refl s
  · exact Work.act (.edit s c _ _ ‹_› (tag _))

theorem modifyLost_work (c : CtxId) (i : Nat) (f : LostEntry → LostEntry) (s : State) :
    Work [.edit] s (modifyLost c i f s) := modifyContext_work c _ s

theorem enqueueSolve_work (c : CtxId) (s : State) : Work [.queue] s (enqueueSolve c s) := by
  have nodup := enqueueSolve_nodup s c
  unfold enqueueSolve at nodup ⊢
  split
  · exact Work.refl s
  · rename_i h
    rw [if_neg h] at nodup
    exact Work.act (.queue s _ nodup)

theorem dequeueSolve_work (c : CtxId) (s : State) : Work [.queue] s (dequeueSolve c s) :=
  Work.act (.queue s _ fun nodup => nodup.erase c)

/-- The kinds of a solve's beginning. -/
abbrev solveKinds : List Kind := [.queue, .solver]

theorem beginSolve_work (c : CtxId) (s : State) : Work solveKinds s (beginSolve c s) := by
  unfold beginSolve
  split
  · exact Work.refl s
  · exact (dequeueSolve_work c s).mono.trans (Work.act (.solver _ _))

theorem beginNext_work (s : State) : Work solveKinds s (beginNext s) := by
  unfold beginNext
  split
  · exact Work.refl s
  · split
    · exact Work.refl s
    · exact beginSolve_work _ s

theorem enterQueue_work (c : CtxId) (s : State) : Work solveKinds s (enterQueue c s) :=
  (enqueueSolve_work c s).mono.trans (beginNext_work _)

theorem mem_readyContexts (s : State) (c : CtxId) : c ∈ s.readyContexts ↔ onReadyList s c = true := by
  simp only [State.readyContexts, onReadyList, List.mem_flatten, List.any_eq_true, List.contains_iff_mem]

/-- Each list without a context stands inside the list. -/
theorem flatten_map_erase_sublist (ls : List (List CtxId)) (c : CtxId) :
    ((ls.map fun l => l.erase c).flatten).Sublist ls.flatten := by
  induction ls with
  | nil => simp
  | cons l ls ih => simpa using List.Sublist.append List.erase_sublist ih

theorem unready_sublist (c : CtxId) (s : State) : (unready c s).readyContexts.Sublist s.readyContexts := by
  have sub := flatten_map_erase_sublist s.arbiter.ready.toList c
  rwa [← Vector.toList_map] at sub

theorem not_mem_unready (c : CtxId) (s : State) (nodup : s.readyContexts.Nodup) :
    c ∉ (unready c s).readyContexts := by
  have each : ∀ l ∈ s.arbiter.ready.toList, l.Nodup := (List.nodup_flatten.1 nodup).1
  simp only [State.readyContexts, unready_arbiter, Vector.toList_map, List.mem_flatten, List.mem_map, not_exists,
    not_and]
  rintro l' ⟨l, mem, rfl⟩
  exact (each l mem).not_mem_erase

theorem unready_work (c : CtxId) (s : State) : Work [.ready] s (unready c s) :=
  Work.act (.ready s _ ((unready_sublist c s).nodup ·) fun _ mem => (unready_sublist c s).subset mem)

/-- An append to one of the lists adds its context and no other. -/
theorem flatten_set_append_perm {n : Nat} (v : Vector (List CtxId) n) (i : Fin n) (c : CtxId) :
    ((v.set i (v[i] ++ [c])).toList.flatten).Perm (v.toList.flatten ++ [c]) := by
  have cut : v.toList = v.toList.take i.val ++ v[i] :: v.toList.drop (i.val + 1) := by
    have h : i.val < v.toList.length := by simp
    conv_lhs => rw [← List.take_append_drop i.val v.toList, List.drop_eq_getElem_cons h]
    simp
  rw [Vector.toList_set, List.set_eq_take_append_cons_drop, if_pos (by simp)]
  conv_rhs => rw [cut]
  simp only [List.flatten_append, List.flatten_cons, List.append_assoc]
  refine List.Perm.append_left _ (List.Perm.append_left _ ?_)
  exact List.perm_append_comm

theorem makeReady_perm (c : CtxId) (u : Nat) (s : State) :
    (makeReady c u s).readyContexts.Perm (s.readyContexts ++ [c]) := flatten_set_append_perm _ _ c

/-- The kinds of a context's move to the back of the queue or of a list. -/
abbrev moveKinds : List Kind := [.queue, .ready]

/-- A listed context moved to another list stands on the lists once, as it did before. -/
theorem makeReady_unready_work (c : CtxId) (u : Nat) (s : State) (listed : onReadyList s c = true) :
    Work [.ready] s (makeReady c u (unready c s)) := by
  have perm := makeReady_perm c u (unready c s)
  refine Work.act (.ready s (makeReady c u (unready c s)).arbiter.ready (fun nodup => ?_) fun d mem => ?_)
  · refine perm.nodup_iff.2 (List.nodup_append.2 ?_)
    refine ⟨(unready_sublist c s).nodup nodup, List.nodup_singleton c, ?_⟩
    rintro a mem b one rfl
    rw [List.mem_singleton.1 one] at mem
    exact not_mem_unready c s nodup mem
  · rcases List.mem_append.1 (perm.mem_iff.1 mem) with h | h
    · exact (unready_sublist c s).subset h
    · rw [List.mem_singleton.1 h]
      exact (mem_readyContexts s c).2 listed

theorem moveClass_work (c : CtxId) (u : Nat) (s : State) : Work moveKinds s (moveClass c u s) := by
  have queued : Work moveKinds s
      (if s.solveQueue.contains c then { s with solveQueue := s.solveQueue.erase c ++ [c] } else s) := by
    split
    · refine Work.act (.queue s _ fun nodup => ?_)
      rw [List.nodup_append]
      refine ⟨nodup.erase c, List.nodup_singleton c, ?_⟩
      rintro a mem b one rfl
      exact nodup.not_mem_erase (List.mem_singleton.1 one ▸ mem)
    · exact Work.refl s
  refine queued.trans ?_
  unfold moveClass
  generalize (if s.solveQueue.contains c then { s with solveQueue := s.solveQueue.erase c ++ [c] } else s) = t
  dsimp only
  split
  · exact (makeReady_unready_work c u _ ‹_›).mono
  · exact Work.refl _

theorem blankAvailable_work (p : LaneId) (s : State) : Work [.retry] s (blankAvailable p s) := by
  unfold blankAvailable
  split
  · exact Work.refl s
  · exact Work.act (.retry s _)

/-- A change of the marks on the blanks of one lane. -/
theorem modifyStock_work {f : List StockEntry → List StockEntry}
    (same : ∀ es, (f es).map StockEntry.blank = es.map StockEntry.blank) (p : LaneId) (s : State) :
    Work [.marks] s (modifyStock p f s) := by
  refine Work.act (.marks s _ fun q => ?_)
  by_cases e : q = p
  · subst e; simp [same]
  · have other := setLane_other s p q { s.lanes[p] with stock := f s.lanes[p].stock } e
    rw [setLane_lanes] at other
    rw [other]
    exact ⟨rfl, rfl, rfl⟩

theorem changeFirst_blank (test : StockEntry → Bool) (f : StockEntry → StockEntry) (keeps : ∀ e, (f e).blank = e.blank)
    (es : List StockEntry) : (changeFirst test f es).map StockEntry.blank = es.map StockEntry.blank := by
  induction es with
  | nil => rfl
  | cons e es ih =>
    unfold changeFirst
    split
    · simp [keeps]
    · simp [ih]

/-! ## Chains, records, notes -/

/-- The kinds of an append to a chain. -/
abbrev chainKinds : List Kind := [.write, .halt, .event, .tails]

theorem linkFinished_work (order : Nat) (s : State) : Work chainKinds s (linkFinished order s) := by
  refine inOrder_cons_work (fun t => ?_) (inOrder_one_work fun t => ?_) s
  · split <;> exact (writeHost_work _ _ _ t).mono
  · exact Work.act (.tails t t.lanes _ fun _ => ⟨rfl, rfl⟩)

theorem linkFilled_work (p : LaneId) (record : Nat) (s : State) : Work chainKinds s (linkFilled p record s) := by
  refine inOrder_cons_work (fun t => ?_) (inOrder_cons_work (fun t => ?_) (inOrder_one_work fun t => ?_)) s
  · split <;> exact (writeHost_work _ _ _ t).mono
  · refine Work.act (.tails t _ t.finishedTail fun q => ?_)
    by_cases e : q = p
    · subst e; simp
    · have other := setLane_other t p q { t.lanes[p] with filledTail := some record } e
      rw [setLane_lanes] at other
      rw [other]
      exact ⟨rfl, rfl⟩
  · split
    · exact (raise_work _ t).mono
    · exact Work.refl t

theorem returnRecord_work (p : LaneId) (record : Nat) (f : RecordFields) (s : State) :
    Work chainKinds s (returnRecord p record f s) := by
  have field (a w v : Nat) (t : State) : Work chainKinds t (writeField .fenceBlank a w v t) :=
    (writeHost_work _ _ _ t).mono
  exact inOrder_cons_work (field _ _ _) (inOrder_cons_work (field _ _ _) (inOrder_cons_work (field _ _ _)
    (inOrder_cons_work (field _ _ _) (inOrder_cons_work (field _ _ _) (inOrder_cons_work (field _ _ _)
    (inOrder_cons_work (field _ _ _) (inOrder_cons_work (fun t => (writeHost_work _ _ _ t).mono)
    (inOrder_one_work fun t => linkFilled_work p record t)))))))) s

/-- The kinds of an outcome written into a note. -/
abbrev noteKinds : List Kind := [.write, .halt, .event]

theorem writeNoteOutcome_work (note : Nat) (o : NoteOutcome) (s : State) :
    Work noteKinds s (writeNoteOutcome note o s) := by
  refine inOrder_cons_work (fun t => (writeHost_work _ _ _ t).mono) (inOrder_one_work fun t => ?_) s
  split
  · exact (raise_work _ t).mono
  · exact Work.refl t

theorem writeResult_work (order : Nat) (r : OrderResult) (s : State) : Work chainKinds s (writeResult order r s) := by
  refine inOrder_work (fun f mem t => ?_) s
  rcases List.mem_append.1 mem with h | h
  · simp only [List.mem_cons, List.not_mem_nil, or_false] at h
    rcases h with rfl | rfl | rfl | rfl | rfl | rfl <;> exact (writeHost_work _ _ _ t).mono
  · obtain ⟨i, _, rfl⟩ := List.mem_mapIdx.1 h
    exact (writeHost_work _ _ _ t).mono

theorem finishAppend_work (order : Nat) (r : OrderResult) (notify : Bool) (s : State) :
    Work chainKinds s (finishAppend order r notify s) := by
  refine inOrder_cons_work (writeResult_work order r) (inOrder_cons_work (fun t => (writeHost_work _ _ _ t).mono)
    (inOrder_cons_work (fun t => (writeHost_work _ _ _ t).mono) (inOrder_cons_work (linkFinished_work order)
    (inOrder_one_work fun t => ?_)))) s
  split
  · exact (raise_work _ t).mono
  · exact Work.refl t

/-! ## Readiness, claims, turns -/

/-- The kinds of a re-evaluation. -/
abbrev readyKinds : List Kind := [.edit, .event, .ready, .join]

theorem markStarved_work (c : CtxId) (i : Nat) (s : State) : Work [.edit, .event] s (markStarved c i s) := by
  unfold markStarved
  split
  · exact Work.refl s
  · split
    · exact Work.refl s
    · split
      · exact (modifyLost_work _ _ _ s).mono.trans (raise_work _ _).mono
      · exact Work.refl s

theorem reevaluateOne_work (s : State) (c : CtxId) : Work readyKinds s (reevaluateOne s c) := by
  unfold reevaluateOne
  split
  · exact Work.refl s
  · split
    · exact Work.refl s
    · rename_i ungranted
      refine Work.trans ?_ (foldl_work (fun t i => (markStarved_work c i t).mono) _ _)
      split <;> split
      · exact Work.refl s
      · rename_i unlisted
        exact Work.act (.join s c _ (by simpa using unlisted) ungranted)
      · exact (unready_work _ s).mono
      · exact Work.refl s

theorem reevaluate_work (s : State) : Work readyKinds s (reevaluate s) := foldl_work reevaluateOne_work _ s

theorem claimFor_work (c : CtxId) (s : State) (e : LostEntry) : Work [.marks] s (claimFor c s e) := by
  unfold claimFor
  split
  · refine modifyStock_work (fun es => ?_) _ s
    split
    · exact changeFirst_blank _ (fun k => { k with claim := some e.frag }) (fun _ => rfl) es
    · exact changeFirst_blank _ (fun k => { k with claim := some e.frag }) (fun _ => rfl) es
  · exact Work.refl s

theorem releaseClaimsOn_work (s : State) (p : LaneId) : Work [.marks, .retry] s (releaseClaimsOn s p) := by
  have cleared : Work [.marks, .retry] s (modifyStock p (fun stock => stock.map fun e => { e with claim := none }) s) :=
    (modifyStock_work (fun es => by simp [Function.comp_def]) p s).mono
  unfold releaseClaimsOn
  dsimp only
  split
  · exact cleared.trans (blankAvailable_work _ _).mono
  · exact cleared

theorem releaseClaims_work (s : State) : Work [.marks, .retry] s (releaseClaims s) :=
  foldl_work releaseClaimsOn_work _ s

theorem issueMemberReads_work (S w len : Nat) (s : State) (m : Member) :
    Work [.read] s (issueMemberReads S w len s m) := by
  unfold issueMemberReads
  dsimp only
  split
  · exact Work.act (.read s _ _)
  · exact (Work.act (.read s _ _)).trans (Work.act (.read _ _ _))

/-- The kinds of a combine's beginning. -/
abbrev combineKinds : List Kind := [.turn, .combine, .marks, .read]

theorem beginCombine_work (c : CtxId) (s : State) : Work combineKinds s (beginCombine c s) := by
  unfold beginCombine
  split
  · exact Work.refl s
  · rename_i x _
    have counted := (Work.act (K := combineKinds) (.combine s (some (combineFor c x s.now)))).trans
      (Work.act (.turn _ s.arbiter.grantee (s.arbiter.turnCount + 1) s.arbiter.turnQuota))
    exact Work.trans (Work.trans counted (foldl_work (fun t e => (claimFor_work c t e).mono) _ _))
      (foldl_work (fun t m => (issueMemberReads_work _ _ _ t m).mono) _ _)

theorem ungrant_work (s : State) : Work [.turn] s (ungrant s) :=
  Work.act (.turn s none s.arbiter.turnCount s.arbiter.turnQuota)

theorem endOfTurn_work (c : CtxId) (s : State) : Work (.rejoin :: combineKinds) s (endOfTurn c s) := by
  unfold endOfTurn
  split
  · exact (ungrant_work s).mono
  · split
    · split
      · exact (beginCombine_work _ s).mono
      · exact (ungrant_work s).mono.trans (Work.act (.rejoin _ _ _))
    · exact (ungrant_work s).mono

theorem grantTurn_work (c : CtxId) (s : State) : Work (.ready :: combineKinds) s (grantTurn c s) := by
  unfold grantTurn
  exact ((unready_work c s).mono.trans (Work.act (.turn (unready c s) _ _ _))).trans (beginCombine_work c _).mono

/-- The kinds of a grant. -/
abbrev grantKinds : List Kind := readyKinds ++ combineKinds

theorem grantNext_work (s : State) : Work grantKinds s (grantNext s) := by
  unfold grantNext
  split
  · exact Work.refl s
  · split
    · exact Work.refl s
    · exact (grantTurn_work _ s).mono.trans (reevaluate_work _).mono

/-! ## How a context ends -/

/-- The kinds of the entry to DRAINING. -/
abbrev drainKinds : List Kind := [.edit, .queue, .ready, .wait]

theorem enterDraining_work (c : CtxId) (o : OrderOutcome) (d : Detail) (s : State) :
    Work drainKinds s (enterDraining c o d s) := by
  unfold enterDraining
  split
  · exact Work.refl s
  · split
    · exact Work.refl s
    · rename_i x used _
      have drained := Work.act (K := drainKinds) (.edit s c x { x with
        state := .draining, outcome := o, detail := d, settleDeadline := none
        stragglerDeadline := none, stragglerArmed := false } used rfl)
      refine (drained.trans ((dequeueSolve_work c _).mono.trans (unready_work c _).mono)).trans ?_
      exact Work.act (.wait _ _ fun nodup => nodup.erase c)

theorem closeFragment_work (c : CtxId) (i : Nat) (status : DeliveryStatus) (s : State) :
    Work (.edit :: chainKinds) s (closeFragment c i status s) := by
  unfold closeFragment
  split
  · exact Work.refl s
  · split
    · exact Work.refl s
    · split
      · exact inOrder_cons_work (fun t => (returnRecord_work _ _ _ t).mono)
          (inOrder_one_work fun t => (modifyLost_work _ _ _ t).mono) s
      · exact Work.refl s

theorem releaseReservationsOn_work (c : CtxId) (s : State) (p : LaneId) :
    Work [.marks, .retry] s (releaseReservationsOn c s p) := by
  have cleared : Work [.marks, .retry] s (modifyStock p
      (fun stock => stock.map fun e => if e.reservedBy c then { e with reservation := none } else e) s) := by
    refine (modifyStock_work (fun es => ?_) p s).mono
    simp only [List.map_map]
    exact List.map_congr_left fun e _ => by simp only [Function.comp]; split <;> rfl
  unfold releaseReservationsOn
  dsimp only
  split
  · exact cleared.trans (blankAvailable_work _ _).mono
  · exact cleared

theorem freeContext_work (c : CtxId) (s : State) : Work [.free, .marks, .retry] s (freeContext c s) :=
  (Work.act (.free s c)).trans (foldl_work (fun t p => (releaseReservationsOn_work c t p).mono) _ _)

/-- The kinds of a drain's end. -/
abbrev finishKinds : List Kind := chainKinds ++ [.edit, .free, .marks, .retry]

theorem finishContext_work (c : CtxId) (s : State) : Work finishKinds s (finishContext c s) := by
  unfold finishContext
  split
  · exact Work.refl s
  · refine inOrder_work (fun f mem t => ?_) s
    simp only [List.mem_append, List.mem_map, List.mem_cons, List.not_mem_nil, or_false] at mem
    rcases mem with ⟨i, _, rfl⟩ | rfl | rfl
    · exact (closeFragment_work _ _ _ t).mono
    · exact (finishAppend_work _ _ _ t).mono
    · exact (freeContext_work _ t).mono

theorem finishIfDue_work (c : CtxId) (s : State) : Work finishKinds s (finishIfDue c s) := by
  unfold finishIfDue
  split
  · exact finishContext_work _ s
  · exact Work.refl s

/-- The kinds of the end of STOPPING. -/
abbrev stopKinds : List Kind := chainKinds ++ [.unstock, .engine]

theorem linkUnusedOn_work (p : LaneId) (s : State) : Work stopKinds s (linkUnusedOn p s) := by
  refine inOrder_work (fun f mem t => ?_) s
  obtain ⟨e, _, rfl⟩ := List.mem_map.1 mem
  exact inOrder_cons_work (fun t => Work.act (.unstock t p e)) (inOrder_one_work fun t =>
    (returnRecord_work _ _ _ t).mono) t

/-- The engine's state, cause and reads in flight, with the idle deadline as it was. -/
theorem engine_act (s : State) (e : Engine) (k : Cause) (at₀ at₁ : Option Nat) :
    Act .engine s { s with control := { s.control with
      engine := e, cause := k, startReadAt := at₀, reloadAt := at₁ } } :=
  Act.engine s e k at₀ at₁ s.control.idleDeadline s.control.idleElapsed fun clear zero => clear zero

theorem enterStopped_work (s : State) : Work [.event, .engine] s (enterStopped s) := by
  unfold enterStopped
  split
  · exact (Work.act (engine_act s .stopped s.control.cause s.control.startReadAt s.control.reloadAt)).trans
      (raise_work _ _).mono
  · exact Work.refl s

theorem concludeStop_work (s : State) : Work stopKinds s (concludeStop s) := by
  unfold concludeStop
  split
  · refine inOrder_work (fun f mem t => ?_) s
    rcases List.mem_append.1 mem with h | h
    · obtain ⟨p, _, rfl⟩ := List.mem_map.1 h
      exact linkUnusedOn_work p t
    · obtain rfl := List.mem_singleton.1 h
      exact (enterStopped_work t).mono
  · exact Work.refl s

/-! ## Candidates lost -/

/-- The kinds of what follows when candidates are lost. -/
abbrev lossKinds : List Kind := [.edit, .queue, .solver, .ready, .wait]

theorem resolveAgain_work (c : CtxId) (s : State) : Work lossKinds s (resolveAgain c s) :=
  ((modifyContext_work c _ s).mono.trans (unready_work c _).mono).trans (enterQueue_work c _).mono

theorem rebase_work (c : CtxId) (s : State) : Work lossKinds s (modifyContext c Context.rebase s) :=
  (modifyContext_work c _ s).mono

theorem afterLoss_work (c : CtxId) (member : Bool) (s : State) : Work lossKinds s (afterLoss c member s) := by
  unfold afterLoss
  split
  · exact Work.refl s
  · split
    · exact (enterDraining_work _ _ _ s).mono
    · split
      · dsimp only
        split
        · exact rebase_work c s
        · exact rebase_work c s
        · exact (rebase_work c s).trans (modifyContext_work c _ _).mono
        · exact (rebase_work c s).trans (resolveAgain_work _ _)
        · exact Work.refl s
      · exact Work.refl s

theorem loseCandidates_work (c : CtxId) (frags : List Nat) (st : CandState) (s : State) :
    Work lossKinds s (loseCandidates c frags st s) := by
  unfold loseCandidates
  split
  · exact Work.refl s
  · rename_i x used
    have lost := (Work.act (K := lossKinds) (.edit s c x (x.lose frags st).remargin used rfl)).trans
      (afterLoss_work c (x.basis.any fun f => frags.contains f) _)
    dsimp only
    split
    · exact lost
    · exact lost.trans (moveClass_work _ _ _).mono

theorem evalStraggler_tag (x : Context) (now interval : Nat) (advanced : Bool) :
    (x.evalStraggler now interval advanced).tag = x.tag := by
  unfold Context.evalStraggler
  split
  · split <;> rfl
  · rfl

theorem evaluateStraggler_work (c : CtxId) (b : Bool) (s : State) : Work [.edit] s (evaluateStraggler c b s) := by
  refine modifyContext_work c _ s fun x => ?_
  split
  · exact evalStraggler_tag x _ _ _
  · rfl

theorem enterActive_work (c : CtxId) (s : State) : Work [.edit] s (enterActive c s) :=
  (modifyContext_work c _ s).trans (evaluateStraggler_work _ _ _)

/-! ## Steering -/

/-- The kinds of an assignment attempt. -/
abbrev attemptKinds : List Kind := [.edit, .marks, .wait, .event, .queue, .solver]

theorem reserveOn_work (p : LaneId) (c : CtxId) (frag : Nat) (s : State) : Work [.marks] s (reserveOn p c frag s) :=
  modifyStock_work (changeFirst_blank _ (fun k => { k with reservation := some { ctx := c, frag := frag } })
    fun _ => rfl) p s

theorem assignFragment_work (c : CtxId) (s : State) (i : Nat) : Work [.edit, .marks] s (assignFragment c s i) := by
  unfold assignFragment
  split
  · exact Work.refl s
  · split
    · exact Work.refl s
    · split
      · exact Work.refl s
      · exact (modifyLost_work _ _ _ s).mono.trans (reserveOn_work _ _ _ _).mono

theorem dropReservations_work (c : CtxId) (s : State) : Work [.marks] s (dropReservations c s) := by
  refine Work.act (.marks s _ fun p => ?_)
  simp only [Fin.getElem_fin, Vector.getElem_map, List.map_map, and_self, and_true]
  exact List.map_congr_left fun e _ => by simp only [Function.comp]; split <;> rfl

theorem waitSteering_work (c : CtxId) (s : State) : Work attemptKinds s (waitSteering c s) := by
  unfold waitSteering
  dsimp only
  split
  · exact (dropReservations_work c s).mono
  · rename_i unlisted
    refine ((dropReservations_work c s).mono.trans (Work.act (.wait _ _ fun nodup => ?_))).trans (raise_work _ _).mono
    rw [List.nodup_append]
    refine ⟨nodup, List.nodup_singleton c, ?_⟩
    rintro a mem b one rfl
    rw [List.mem_singleton.1 one] at mem
    exact unlisted (List.contains_iff_mem.2 mem)

theorem leaveSteering_work (c : CtxId) (s : State) : Work attemptKinds s (leaveSteering c s) := by
  unfold leaveSteering
  refine (Work.act (.wait s (s.steering.waitList.erase c) fun nodup => nodup.erase c)).trans ?_
  dsimp only
  split
  · exact Work.refl _
  · split
    · exact (modifyContext_work c _ _).mono.trans (enterQueue_work _ _).mono
    · exact (enterActive_work _ _).mono

theorem attemptSteering_work (c : CtxId) (s : State) : Work attemptKinds s (attemptSteering c s) := by
  unfold attemptSteering
  split
  · exact Work.refl s
  · split
    · dsimp only
      rename_i x _ _
      have assigned := foldl_work (K := attemptKinds) (fun t i => (assignFragment_work c t i).mono)
        (List.range x.lost.length) s
      split
      · exact assigned.trans (waitSteering_work _ _)
      · exact assigned.trans (leaveSteering_work _ _)
    · exact Work.refl s

/-- Only a 1 in bit 15 alone is shifted out whole, and that bit comes back by the feedback. -/
theorem lfsrStep_ne_zero (v : BitVec 16) (nonzero : v ≠ 0) : lfsrStep v ≠ 0 := by
  intro zero
  obtain ⟨shifted, fed⟩ := BitVec.or_eq_zero_iff.1 zero
  have only : v = 0x8000#16 := by bv_omega
  subst only
  exact absurd fed (by decide)

theorem draw_ne_zero (table : SteeringTable) (n : Nat) (v : BitVec 16) (nonzero : v ≠ 0) : (draw table n v).1 ≠ 0 := by
  induction n generalizing v with
  | zero => exact nonzero
  | succ n ih =>
    unfold draw
    dsimp only
    split
    · exact lfsrStep_ne_zero v nonzero
    · exact ih _ (lfsrStep_ne_zero v nonzero)

theorem resolveEntry_ne_zero (table : SteeringTable) (v : BitVec 16) (e : LostEntry) (nonzero : v ≠ 0) :
    (resolveEntry table v e).1 ≠ 0 := by
  have drawn : (drawFor table v).1 ≠ 0 := by
    unfold drawFor
    split
    · exact nonzero
    · exact draw_ne_zero table _ v nonzero
  unfold resolveEntry
  split
  · split
    · exact drawn
    · exact nonzero
  · exact drawn
  · exact nonzero

theorem resolveAll_ne_zero (table : SteeringTable) (es : List LostEntry) (v : BitVec 16) (nonzero : v ≠ 0) :
    (resolveAll table v es).lfsr ≠ 0 := by
  induction es generalizing v with
  | nil => exact nonzero
  | cons e es ih =>
    have next := resolveEntry_ne_zero table v e nonzero
    unfold resolveAll
    split
    · rename_i r; rwa [r] at next
    · rename_i r; rw [r] at next; exact ih _ next

/-- The kinds of a steering pass. -/
abbrev steerKinds : List Kind := .lfsr :: .ready :: attemptKinds

theorem enterSteering_work (c : CtxId) (s : State) : Work steerKinds s (enterSteering c s) := by
  unfold enterSteering
  split
  · exact Work.refl s
  · rename_i x used
    dsimp only
    have resolved := (Work.act (K := steerKinds) (.lfsr s (resolveAll s.control.steering s.steering.lfsr x.lost).lfsr
      (resolveAll_ne_zero _ _ _))).trans (Work.act (.edit _ c x { x with
        state := .steering, lost := (resolveAll s.control.steering s.steering.lfsr x.lost).lost } used rfl))
    split
    · exact resolved.trans (enterDraining_work _ _ _ _).mono
    · exact resolved.trans (attemptSteering_work _ _).mono

/-- The kinds of the retries that end an event. -/
abbrev retryKinds : List Kind := .retry :: attemptKinds

theorem retryWaiting_work (s : State) : Work retryKinds s (retryWaiting s) :=
  (Work.act (.retry s [])).trans (foldl_work (fun t c => (attemptSteering_work c t).mono) _ _)

/-- The kinds of what the steering unit and the arbiter do at the end of an event. -/
abbrev arbitrateKinds : List Kind := retryKinds ++ grantKinds

theorem arbitrate_work (s : State) : Work arbitrateKinds s (arbitrate s) :=
  ((retryWaiting_work s).mono.trans (reevaluate_work _).mono).trans (grantNext_work _).mono

/-! ## Walkers and doze -/

theorem setWalker_work (w : WalkerId) (x : Walker) (s : State)
    (room : x.state = .reading → (s.walker w).state = .reading ∨ hasLeave s w = true) :
    Work [.walkers] s (setWalker w x s) := by
  cases w with
  | order => exact Work.act (.walkers s x s.noteWalker s.blankWalkers fun _ reading => .inl reading)
  | note => exact Work.act (.walkers s s.orderWalker x s.blankWalkers fun _ reading => .inl reading)
  | blank p =>
    refine Work.act (.walkers s s.orderWalker s.noteWalker (s.blankWalkers.set p x) fun q reading => ?_)
    by_cases e : p = q
    · subst e
      exact (room (by simpa using reading)).imp id of_decide_eq_true
    · have other : p.val ≠ q.val := fun h => e (Fin.ext h)
      exact .inl (by simpa [Vector.getElem_set, other] using reading)

theorem restartHeld_work (s : State) : Work [.walkers] s (restartHeld s) := by
  refine Work.act (.walkers s _ _ _ fun p reading => .inl ?_)
  rw [Fin.getElem_fin, Vector.getElem_map] at reading
  split at reading
  · rename_i held
    exact absurd (held.symm.trans reading) (by decide)
  · exact reading

/-- The kinds of what ends or begins a doze. -/
abbrev dozeKinds : List Kind := [.walkers, .engine]

theorem enterDoze_work (s : State) : Work dozeKinds s (enterDoze s) := by
  unfold enterDoze
  split
  · exact (Work.act (engine_act s .dozing s.control.cause s.control.startReadAt s.control.reloadAt)).trans
      (restartHeld_work _).mono
  · exact Work.refl s

theorem startIdle_work (s : State) : Work [.engine] s (startIdle s) :=
  Work.act (.engine s s.control.engine s.control.cause s.control.startReadAt s.control.reloadAt _ _
    fun _ zero => ⟨if_pos zero, rfl⟩)

theorem leaveDoze_work (s : State) : Work dozeKinds s (leaveDoze s) :=
  Work.trans (Work.trans
    (Work.act (engine_act s .running s.control.cause s.control.startReadAt s.control.reloadAt))
    (restartHeld_work _).mono) (startIdle_work _).mono

theorem recordTaken_work (s : State) : Work dozeKinds s (recordTaken s) := by
  unfold recordTaken
  split
  · exact leaveDoze_work s
  · exact (startIdle_work s).mono

/-- The kinds of a walker's own steps. -/
abbrev walkKinds : List Kind := [.walkers, .read]

theorem takeLeave_work (w : WalkerId) (s : State) : Work walkKinds s (takeLeave w s) := by
  unfold takeLeave
  split
  · split
    · exact Work.refl s
    · rename_i leave _ _ _
      rw [Bool.and_eq_true] at leave
      exact (setWalker_work w _ s fun _ => .inr leave.2).mono.trans (Work.act (.read _ _ _))
  · exact Work.refl s

theorem giveLeave_work (s : State) : Work walkKinds s (giveLeave s) := by
  unfold giveLeave
  split
  · exact foldl_work (fun t w => takeLeave_work w t) _ s
  · exact Work.refl s

theorem issueRevisit_work (w : WalkerId) (s : State) : Work walkKinds s (issueRevisit w s) := by
  unfold issueRevisit
  split
  · exact Work.refl s
  · exact (setWalker_work w _ s fun reading => WalkerState.noConfusion reading).mono.trans (Work.act (.read _ _ _))

theorem wakeWalker_work (w : WalkerId) (s : State) : Work walkKinds s (wakeWalker w s) := by
  unfold wakeWalker
  split
  · exact issueRevisit_work w s
  · exact (setWalker_work w { s.walker w with wakePending := true } s fun reading => .inl reading).mono
  all_goals exact Work.refl s

/-- The kinds of a walker's step on a link it has read. -/
abbrev linkKinds : List Kind := .halt :: walkKinds

theorem walkOn_work (w : WalkerId) (record : Nat) (link : Link) (s : State) :
    Work linkKinds s (walkOn w record link s) := by
  unfold walkOn
  split
  · exact (setWalker_work w _ s fun reading => WalkerState.noConfusion reading).mono.trans (giveLeave_work _).mono
  · exact (setWalker_work w _ s fun reading => WalkerState.noConfusion reading).mono.trans (giveLeave_work _).mono
  · exact Work.act (.halt s _)

theorem actOnRevisit_work (w : WalkerId) (link : Link) (s : State) : Work linkKinds s (actOnRevisit w link s) := by
  unfold actOnRevisit
  split
  · split
    · exact (issueRevisit_work w s).mono
    · exact (setWalker_work w _ s fun reading => WalkerState.noConfusion reading).mono
  · exact (setWalker_work w _ s fun reading => WalkerState.noConfusion reading).mono.trans (giveLeave_work _).mono
  · exact Work.act (.halt s _)

/-- A take is its unit's work between the record's and the walker's. -/
theorem takeRecord_work {K : List Kind} {unit : Nat → List Byte → State → State}
    (h : ∀ a image t, Work K t (unit a image t)) (w : WalkerId) (r : ReadResult) (s : State)
    (sub : ∀ k ∈ linkKinds ++ dozeKinds, k ∈ K := by decide) : Work K s (takeRecord w unit r s) := by
  have halts (c : Cause) : Work K s (halt c s) := Work.act (.halt s c) (sub _ (by decide))
  unfold takeRecord
  split
  · split
    · exact halts _
    · exact Work.refl s
    · split
      · exact halts _
      · exact inOrder_cons_work (fun t => (recordTaken_work t).mono fun k mem => sub k (List.mem_append_right _ mem))
          (inOrder_cons_work (h _ _) (inOrder_one_work fun t => (walkOn_work _ _ _ t).mono
            fun k mem => sub k (List.mem_append_left _ mem))) s
  · exact Work.refl s

/-- The kinds of the end of an event. -/
abbrev endKinds : List Kind := stopKinds ++ walkKinds ++ dozeKinds

theorem endEvent_work (s : State) : Work endKinds s (endEvent s) :=
  ((concludeStop_work s).mono.trans (giveLeave_work _).mono).trans (enterDoze_work _).mono

end Sys2Proof.Proofs

/-! PROOFS. The acts of the commands: one lemma per command, and the kinds of all of them in one table. -/

namespace Sys2Proof.Proofs

open Sys2Proof Sys2Proof.Machine

-- In order: declarations that run `decide` side by side wait for each other, each on a thread of its own.
set_option Elab.async false

/-! ## Notes and the pen -/

theorem endSettle_work (c : CtxId) (s : State) : Work (.edit :: solveKinds) s (endSettle c s) :=
  (modifyContext_work c _ s).mono.trans (enterQueue_work c _).mono

theorem settleIfLanded_work (c : CtxId) (s : State) : Work (.edit :: solveKinds) s (settleIfLanded c s) := by
  unfold settleIfLanded
  split
  · exact Work.refl s
  · split
    · exact endSettle_work _ s
    · exact Work.refl s

theorem settleAtDeadline_work (c : CtxId) (s : State) : Work (.edit :: solveKinds) s (settleAtDeadline c s) := by
  unfold settleAtDeadline
  split
  · exact Work.refl s
  · split
    · exact Work.refl s
    · split
      · exact endSettle_work _ s
      · exact Work.refl s

/-- The kinds of a note's application to a context. -/
abbrev applyKinds : List Kind := noteKinds ++ lossKinds

theorem applyData_work (c : CtxId) (addr : Nat) (n : Note) (s : State) : Work applyKinds s (applyData c addr n s) := by
  unfold applyData
  split
  · exact Work.refl s
  · split
    · exact (writeNoteOutcome_work _ _ s).mono
    · exact inOrder_cons_work (fun t => (modifyContext_work c _ t).mono)
        (inOrder_cons_work (fun t => (writeNoteOutcome_work _ _ t).mono)
        (inOrder_one_work fun t => (evaluateStraggler_work _ _ t).mono)) s

theorem applyWithdraw_work (c : CtxId) (addr : Nat) (n : Note) (s : State) :
    Work applyKinds s (applyWithdraw c addr n s) := by
  unfold applyWithdraw
  split
  · exact Work.refl s
  · split
    · exact (writeNoteOutcome_work _ _ s).mono
    · split
      · exact (writeNoteOutcome_work _ _ s).mono
      · exact inOrder_cons_work (fun t => (loseCandidates_work _ _ _ t).mono)
          (inOrder_cons_work (fun t => (writeNoteOutcome_work _ _ t).mono)
          (inOrder_one_work fun t => (evaluateStraggler_work _ _ t).mono)) s

theorem applyCancel_work (c : CtxId) (addr : Nat) (s : State) : Work applyKinds s (applyCancel c addr s) :=
  inOrder_cons_work (fun t => (modifyContext_work c _ t).mono)
    (inOrder_cons_work (fun t => (enterDraining_work _ _ _ t).mono)
    (inOrder_one_work fun t => (writeNoteOutcome_work _ _ t).mono)) s

theorem applyNote_work (c : CtxId) (addr : Nat) (n : Note) (s : State) : Work applyKinds s (applyNote c addr n s) := by
  unfold applyNote
  split
  · exact Work.refl s
  · split
    · exact (writeNoteOutcome_work _ _ s).mono
    · split
      · exact applyData_work c addr n s
      · exact applyWithdraw_work c addr n s
      · exact applyCancel_work c addr s
      · exact (writeNoteOutcome_work _ _ s).mono

/-- The kinds of a note's leaving the pen with its outcome written. -/
abbrev dropKinds : List Kind := .drop :: noteKinds

theorem dropped_work (l : List PenEntry) (note : Nat) (o : NoteOutcome) (s : State) (sub : l.Sublist s.pen) :
    Work dropKinds s (writeNoteOutcome note o { s with pen := l }) :=
  (Work.act (.drop s l sub)).trans (writeNoteOutcome_work _ _ _).mono

theorem makeRoom_work (s : State) : Work dropKinds s (makeRoom s) := by
  unfold makeRoom
  split
  · split
    · exact Work.refl s
    · rename_i e es pen
      exact dropped_work es _ _ s (pen ▸ List.sublist_cons_self e es)
  · exact Work.refl s

/-- The kinds of a note's entry into the pen. -/
abbrev penKinds : List Kind := .pen :: dropKinds

theorem enterPen_work (addr : Nat) (n : Note) (s : State) : Work penKinds s (enterPen addr n s) :=
  inOrder_cons_work (fun t => (makeRoom_work t).mono) (inOrder_cons_work (fun t => Work.act (.pen t _))
    (inOrder_one_work fun t => (writeNoteOutcome_work _ _ t).mono)) s

theorem dropPenFront_work (s : State) : Work dropKinds s (dropPenFront s) := by
  unfold dropPenFront
  split
  · exact Work.refl s
  · rename_i e es pen
    exact dropped_work es _ _ s (pen ▸ List.sublist_cons_self e es)

theorem emptyPen_work (s : State) : Work dropKinds s (emptyPen s) := by
  refine inOrder_work (fun f mem t => ?_) s
  obtain ⟨_, _, rfl⟩ := List.mem_map.1 mem
  exact dropPenFront_work t

theorem expireOrphans_work (s : State) : Work dropKinds s (expireOrphans s) := by
  refine inOrder_work (fun f mem t => ?_) s
  obtain ⟨e, _, rfl⟩ := List.mem_map.1 mem
  exact dropped_work _ _ _ t List.erase_sublist

/-- The kinds of the pen notes' application at a take. -/
abbrev penNoteKinds : List Kind := .drop :: applyKinds

theorem applyPenNotes_work (c : CtxId) (tag : Nat) (s : State) : Work penNoteKinds s (applyPenNotes c tag s) := by
  refine (Work.act (.drop s _ List.filter_sublist)).trans (inOrder_work (fun f mem t => ?_) _)
  obtain ⟨e, _, rfl⟩ := List.mem_map.1 mem
  exact (applyNote_work _ _ _ t).mono

/-- The kinds of the note unit's work at a take. -/
abbrev noteUnitKinds : List Kind := penKinds ++ applyKinds ++ finishKinds ++ arbitrateKinds

/-- The kinds of a note's take. -/
abbrev noteTakeKinds : List Kind := linkKinds ++ dozeKinds ++ noteUnitKinds

theorem dispatchNote_work (addr : Nat) (n : Note) (s : State) : Work noteUnitKinds s (dispatchNote addr n s) := by
  unfold dispatchNote
  split
  · exact (writeNoteOutcome_work _ _ s).mono
  · split
    · exact (enterPen_work _ _ s).mono
    · refine inOrder_cons_work (fun t => (applyNote_work _ _ _ t).mono) (inOrder_cons_work (fun t => ?_)
        (inOrder_cons_work (fun t => (finishIfDue_work _ t).mono)
        (inOrder_one_work fun t => (arbitrate_work t).mono))) s
      split
      · exact (settleIfLanded_work _ t).mono
      · exact Work.refl t

theorem noteUnit_work (addr : Nat) (image : List Byte) (s : State) : Work noteUnitKinds s (noteUnit addr image s) := by
  unfold noteUnit
  split
  · exact Work.act (.halt s _)
  · exact dispatchNote_work _ _ s

/-! ## Orders -/

theorem contexts_of_lowestFree {s : State} {c : CtxId} (h : lowestFree s = some c) : s.contexts[c] = none := by
  simpa using List.find?_some h

theorem tag_ne_of_holderOf {s : State} {tag : Nat} (h : holderOf s tag = none) (c : CtxId) (x : Context)
    (used : s.contexts[c] = some x) : x.tag ≠ tag := by
  have none := List.find?_eq_none.1 h c (List.mem_finRange c)
  rw [used] at none
  simpa using none

/-- An order that passes the checks has a tag that no context in use holds (R39). -/
theorem holderOf_of_validateOrder {s : State} {o : RepairOrder} {p : Profile} (h : validateOrder s o = .ok p) :
    holderOf s o.tag = none := by
  unfold validateOrder at h
  split at h
  · cases h
  · split at h
    · cases h
    · split at h
      · cases h
      · split at h
        · cases h
        · split at h
          · cases h
          · simpa using ‹¬(holderOf s o.tag).isSome = true›

/-- The kinds of the intake unit's work at a take. -/
abbrev intakeKinds : List Kind := .accept :: penNoteKinds ++ finishKinds

/-- The kinds of an order's take. -/
abbrev orderTakeKinds : List Kind := linkKinds ++ dozeKinds ++ intakeKinds

theorem lossAtTake_work (c : CtxId) (s : State) : Work drainKinds s (lossAtTake c s) := by
  unfold lossAtTake
  split
  · exact Work.refl s
  · split
    · exact enterDraining_work _ _ _ s
    · exact Work.refl s

theorem acceptOrder_work (addr : Nat) (o : RepairOrder) (p : Profile) (s : State) (fresh : holderOf s o.tag = none) :
    Work intakeKinds s (acceptOrder addr o p s) := by
  unfold acceptOrder
  split
  · exact Work.refl s
  · rename_i c free
    have rest := inOrder_cons_work (K := intakeKinds)
      (fun t => (writeHost_work .fenceOrder (addr + resultStateOffset) (leBytes 1 resultTaken) t).mono)
      (inOrder_cons_work (fun t => (lossAtTake_work c t).mono)
      (inOrder_cons_work (fun t => (applyPenNotes_work c o.tag t).mono)
      (inOrder_cons_work (fun t => (settleIfLanded_work c t).mono)
      (inOrder_cons_work (fun t => (settleAtDeadline_work c t).mono)
      (inOrder_one_work fun t => (finishIfDue_work c t).mono)))))
    rw [inOrder_cons]
    split
    · exact rest s
    · exact (Work.act (.accept s c _ (contexts_of_lowestFree free) (tag_ne_of_holderOf fresh))).trans (rest _)

theorem intakeUnit_work (addr : Nat) (image : List Byte) (s : State) :
    Work intakeKinds s (intakeUnit addr image s) := by
  unfold intakeUnit
  split
  · dsimp only
    split
    · exact (finishAppend_work _ _ _ s).mono
    · exact acceptOrder_work _ _ _ s (holderOf_of_validateOrder ‹_›)
  · exact Work.act (.halt s _)

/-! ## Blanks -/

/-- The kinds of the delivery unit's work at a take. -/
abbrev blankUnitKinds : List Kind := .stock :: chainKinds ++ arbitrateKinds

/-- The kinds of a blank's take. -/
abbrev blankTakeKinds : List Kind := linkKinds ++ dozeKinds ++ blankUnitKinds

theorem stockBlank_work (p : LaneId) (b : Blank) (s : State) : Work (.stock :: arbitrateKinds) s (stockBlank p b s) :=
  ((Work.act (.stock s p { blank := b, reservation := none, claim := none })).trans
    (blankAvailable_work p _).mono).trans (arbitrate_work _).mono

theorem blankUnit_work (p : LaneId) (addr : Nat) (image : List Byte) (s : State) :
    Work blankUnitKinds s (blankUnit p addr image s) := by
  unfold blankUnit
  split
  · dsimp only
    split
    · exact (returnRecord_work _ _ _ s).mono
    · exact (stockBlank_work _ _ s).mono
  · exact Work.act (.halt s _)

/-! ## Combines -/

/-- The kinds of a combine's handovers and of what else a completion does to its context. -/
abbrev deliverKinds : List Kind := chainKinds ++ [.unstock, .retry, .marks] ++ lossKinds

theorem openClaimed_work (c : CtxId) (i w : Nat) (s : State) : Work [.unstock, .edit] s (openClaimed c i w s) := by
  unfold openClaimed
  split
  · exact Work.refl s
  · split
    · exact Work.refl s
    · split
      · split
        · exact Work.refl s
        · exact (Work.act (.unstock s _ _)).trans (modifyLost_work _ _ _ _).mono
      · exact Work.refl s

theorem fillRecord_work (c : CtxId) (i w S : Nat) (bytes check : List Byte) (s : State) :
    Work (.edit :: writeKinds) s (fillRecord c i w S bytes check s) := by
  unfold fillRecord
  split
  · exact Work.refl s
  · exact inOrder_cons_work (fun t => (writeHost_work _ _ _ t).mono)
      (inOrder_cons_work (fun t => (writeHost_work _ _ _ t).mono)
      (inOrder_one_work fun t => (modifyLost_work _ _ _ t).mono)) s

theorem closeIfDone_work (c : CtxId) (i : Nat) (last : Bool) (s : State) :
    Work (.edit :: chainKinds) s (closeIfDone c i last s) := by
  unfold closeIfDone
  split
  · exact Work.refl s
  · split
    · exact closeFragment_work _ _ _ s
    · split
      · exact closeFragment_work _ _ _ s
      · exact Work.refl s

theorem handOver_work (c : CtxId) (x : Context) (op : Combine) (i : Nat) (output : List Byte) (s : State) :
    Work deliverKinds s (handOver c x op i output s) :=
  inOrder_cons_work (fun t => (openClaimed_work _ _ _ t).mono) (inOrder_cons_work (fun t => (fillRecord_work _ _ _ _ _ _ t).mono)
    (inOrder_one_work fun t => (closeIfDone_work _ _ _ t).mono)) s

theorem finishWindow_work (c : CtxId) (front : Nat) (s : State) : Work drainKinds s (finishWindow c front s) := by
  have advanced : Work drainKinds s (modifyContext c (fun x => x.advanceFront front) s) :=
    (modifyContext_work c _ s).mono
  unfold finishWindow
  dsimp only
  split
  · exact advanced
  · split
    · exact advanced.trans (enterDraining_work _ _ _ _)
    · exact advanced.trans (evaluateStraggler_work _ _ _).mono

theorem actOnCombine_work (op : Combine) (reads : List SurvivorRead) (fault : Bool) (s : State) :
    Work deliverKinds s (actOnCombine op reads fault s) := by
  have released : Work deliverKinds s (releaseClaims s) := (releaseClaims_work s).mono
  unfold actOnCombine
  split
  · exact released
  · split
    · exact released.trans (evaluateStraggler_work _ _ _).mono
    · dsimp only
      split
      · exact released.trans (loseCandidates_work _ _ _ _).mono
      · split
        · exact released.trans (enterDraining_work _ _ _ _).mono
        · refine inOrder_work (fun f mem t => ?_) s
          rcases List.mem_append.1 mem with h | h
          · obtain ⟨i, _, rfl⟩ := List.mem_mapIdx.1 h
            exact handOver_work _ _ _ _ _ t
          · obtain rfl := List.mem_singleton.1 h
            exact (finishWindow_work _ _ t).mono

/-! ## Solves -/

theorem installRows_work (c : CtxId) (rows : List (List Byte)) (s : State) :
    Work steerKinds s (installRows c rows s) := by
  unfold installRows
  split
  · exact Work.refl s
  · rename_i x used
    have installed := Work.act (K := steerKinds) (.edit s c x { x with
      rows := rows, generation := x.generation + 1, basesSolved := min 255 (x.basesSolved + 1) } used rfl)
    dsimp only
    split
    · exact installed.trans (enterActive_work _ _).mono
    · exact installed.trans (enterSteering_work _ _)

theorem actOnSingular_work (c : CtxId) (s : State) : Work drainKinds s (actOnSingular c s) := by
  unfold actOnSingular
  split
  · exact Work.refl s
  · rename_i x used
    have counted := Work.act (K := drainKinds) (.edit s c x { x with attempts := x.attempts + 1 } used rfl)
    dsimp only
    split
    · exact counted.trans (enterDraining_work _ _ _ _)
    · split
      · exact counted.trans (enterDraining_work _ _ _ _)
      · rename_i out into _
        have replaced := Work.act (K := drainKinds) (.edit s c x
          (({ x with attempts := x.attempts + 1 } : Context).replace out into) used rfl)
        exact replaced.trans (enqueueSolve_work _ _).mono

theorem actOnSolve_work (v : Solve) (s : State) : Work steerKinds s (actOnSolve v s) := by
  unfold actOnSolve
  split
  · exact Work.refl s
  · split
    · exact Work.refl s
    · split
      · exact (enqueueSolve_work _ s).mono
      · split
        · exact installRows_work _ _ s
        · exact (actOnSingular_work _ s).mono

/-! ## START, RELOAD, STOP -/

/-- A change of the event unit that issues nothing. -/
theorem events_work (ev : EventUnit) (s : State) : Work [.event] s { s with events := ev } :=
  Work.act (by simpa using Act.event s ev [] (by simp))

/-- The kinds of a rejection. -/
abbrev rejectKinds : List Kind := [.engine, .event]

theorem rejectStart_work (cause : Cause) (latch : Option Bool) (s : State) :
    Work rejectKinds s (rejectStart cause latch s) := by
  unfold rejectStart
  exact Work.trans (Work.trans (Work.act (engine_act s .stopped cause none s.control.reloadAt)) (events_work _ _).mono)
    (raise_work _ _).mono

theorem lfsrSeed_ne_zero (seed : Nat) : lfsrSeed seed ≠ 0 := by
  unfold lfsrSeed
  split
  · decide
  · assumption

theorem loadSeed_work (img : AnchorImage) (s : State) : Work [.lfsr] s (loadSeed img s) :=
  Work.act (.lfsr s _ fun _ => lfsrSeed_ne_zero _)

theorem emptyTails_work (s : State) : Work [.tails] s (emptyTails s) :=
  Work.act (.tails s _ none fun p => by simp)

theorem startWalker_work (w : WalkerId) (word : Nat) (s : State) : Work linkKinds s (startWalker w word s) := by
  unfold startWalker
  split
  · exact (setWalker_work w _ s fun reading => WalkerState.noConfusion reading).mono
  · exact (setWalker_work w _ s fun reading => WalkerState.noConfusion reading).mono
  · exact Work.act (.halt s _)

theorem startWalkers_work (img : AnchorImage) (s : State) : Work linkKinds s (startWalkers img s) := by
  refine inOrder_work (fun f mem t => ?_) s
  simp only [List.mem_append, List.mem_cons, List.not_mem_nil, or_false, List.mem_map] at mem
  rcases mem with (rfl | rfl) | ⟨p, _, rfl⟩ <;> exact startWalker_work _ _ t

/-- The kinds of an anchor read's completion. -/
abbrev loadKinds : List Kind := [.load, .lfsr, .lock, .tails, .engine, .event, .walkers, .halt, .read]

/-- An accepted START up to the walkers' starts. -/
def startLoaded (img : AnchorImage) (s : State) : State :=
  let t := emptyTails (takeLock img (loadSeed img (loadTables img s)))
  { t with
    control := { t.control with engine := .running, startReadAt := none }
    events := { t.events with interruptEnable := img.interruptEnable } }

theorem succeedStart_eq (img : AnchorImage) (s : State) :
    succeedStart img s = inOrder [startWalkers img, startIdle, giveLeave] (startLoaded img s) := rfl

theorem startLoaded_work (img : AnchorImage) (s : State) (loadable : Loadable s img) :
    Work loadKinds s (startLoaded img s) := by
  have filled : Work loadKinds s (emptyTails (takeLock img (loadSeed img (loadTables img s)))) :=
    (((Work.act (.load s img loadable)).trans (loadSeed_work _ _).mono).trans (Work.act (.lock _ _))).trans
      (emptyTails_work _).mono
  refine filled.trans ?_
  unfold startLoaded
  dsimp only
  generalize emptyTails (takeLock img (loadSeed img (loadTables img s))) = t
  exact Work.trans (Work.act (engine_act t .running t.control.cause none t.control.reloadAt)) (events_work _ _).mono

theorem succeedStart_work (img : AnchorImage) (s : State) (loadable : Loadable s img) :
    Work loadKinds s (succeedStart img s) :=
  (startLoaded_work img s loadable).trans
    (inOrder_cons_work (fun t => (startWalkers_work img t).mono) (inOrder_cons_work (fun t => (startIdle_work t).mono)
    (inOrder_one_work fun t => (giveLeave_work t).mono)) _)

theorem finishStart_work (r : ReadResult) (s : State) : Work loadKinds s (finishStart r s) := by
  unfold finishStart
  split
  · exact (rejectStart_work _ _ s).mono
  · dsimp only
    split
    · exact (rejectStart_work _ _ s).mono
    · exact (rejectStart_work _ _ s).mono
    · exact succeedStart_work _ s ⟨⟨_, rfl⟩, ‹_›⟩

theorem rejectReload_work (cause : Cause) (s : State) : Work rejectKinds s (rejectReload cause s) :=
  Work.trans (Work.act (engine_act s s.control.engine cause s.control.startReadAt none)) (raise_work _ _).mono

theorem idleAfterReload_work (s : State) : Work [.engine] s (idleAfterReload s) := by
  unfold idleAfterReload
  split
  · exact startIdle_work s
  · exact Work.refl s

theorem acceptReload_work (img : AnchorImage) (s : State) (loadable : Loadable s img) :
    Work loadKinds s (acceptReload img s) := by
  have filled : Work loadKinds s (if img.reseed then loadSeed img (loadTables img s) else loadTables img s) := by
    have loaded : Work loadKinds s (loadTables img s) := Work.act (.load s img loadable)
    split
    · exact loaded.trans (loadSeed_work _ _).mono
    · exact loaded
  unfold acceptReload
  refine filled.trans ?_
  dsimp only
  generalize (if img.reseed then loadSeed img (loadTables img s) else loadTables img s) = u
  exact Work.trans (Work.trans (Work.act (engine_act u u.control.engine u.control.cause u.control.startReadAt none))
    (idleAfterReload_work _).mono) (raise_work _ _).mono

theorem finishReload_work (r : ReadResult) (s : State) : Work loadKinds s (finishReload r s) := by
  unfold finishReload
  refine Work.trans ?_ (enterDoze_work _).mono
  split
  · exact (rejectReload_work _ s).mono
  · dsimp only
    split
    · exact (rejectReload_work _ s).mono
    · exact acceptReload_work _ s ⟨⟨_, rfl⟩, ‹_›⟩

theorem idleWalkers_work (s : State) : Work [.walkers] s (idleWalkers s) :=
  Work.act (.walkers s _ _ _ fun p reading => absurd reading (by simp [Walker.rest]))

theorem enterStopping_work (s : State) : Work (.retry :: dozeKinds) s (enterStopping s) := by
  refine Work.trans (Work.trans (idleWalkers_work s).mono (Work.act (.engine _ .stopping s.control.cause
    s.control.startReadAt none none false fun _ _ => ⟨rfl, rfl⟩))) (Work.act (.retry _ []))

theorem abortContexts_work (s : State) : Work drainKinds s (abortContexts s) :=
  foldl_work (fun t c => (modifyContext_work c _ t).mono.trans (enterDraining_work c _ _ _)) _ s

theorem finishAllDue_work (s : State) : Work finishKinds s (finishAllDue s) := by
  refine inOrder_work (fun f mem t => ?_) s
  obtain ⟨c, _, rfl⟩ := List.mem_map.1 mem
  exact finishIfDue_work c t

/-- The kinds of a STOP after the entry to STOPPING. -/
abbrev stopRunKinds : List Kind := drainKinds ++ dropKinds ++ finishKinds ++ stopKinds

theorem stopRun_work (s : State) :
    Work stopRunKinds s (inOrder [abortContexts, emptyPen, finishAllDue, concludeStop] s) :=
  inOrder_cons_work (fun t => (abortContexts_work t).mono) (inOrder_cons_work (fun t => (emptyPen_work t).mono)
    (inOrder_cons_work (fun t => (finishAllDue_work t).mono)
    (inOrder_one_work fun t => (concludeStop_work t).mono))) s

/-! ## The other commands' parts -/

theorem reachTime_work (u : Nat) (s : State) : Work [.clock] s (reachTime u s) :=
  Work.act (.clock s _ (Nat.le_max_left _ _))

theorem sendMessage_work (s : State) : Work [.event] s (sendMessage s) := by
  unfold sendMessage
  split
  · exact Work.act (.event s s.events [.msi] (by simp))
  · exact Work.refl s

theorem expireHoldoff_work (s : State) : Work [.event] s (expireHoldoff s) := by
  unfold expireHoldoff
  split
  · split
    · exact events_work _ s
    · exact Work.trans (Work.trans (events_work _ s) (sendMessage_work _)) (events_work _ _)
  · exact events_work _ s

theorem anchorAligned_mod (v : BitVec 64) : (anchorAligned v).toNat % 4096 = 0 := by
  unfold anchorAligned
  rw [BitVec.toNat_shiftLeft, BitVec.toNat_ushiftRight, Nat.shiftLeft_eq]
  omega

/-! ## Every command -/

/-- The kinds of each command. -/
def commandKinds : Instr → List Kind
  | .start => .read :: rejectKinds
  | .stop => .retry :: dozeKinds ++ stopRunKinds
  | .reload => [.read, .engine]
  | .wake => dozeKinds ++ walkKinds
  | .reset => [.reset]
  | .coldReset => [.reset]
  | .anchorRegisterWrite _ => [.anchor]
  | .eventsRead => [.event]
  | .ignoredRegisterWrite _ _ _ => []
  | .startReadCompletion _ => loadKinds
  | .reloadReadCompletion _ => loadKinds
  | .leaveToTake _ => walkKinds
  | .orderTake _ => orderTakeKinds
  | .noteTake _ => noteTakeKinds
  | .blankTake _ _ => blankTakeKinds
  | .revisitDeadline _ => .clock :: walkKinds
  | .revisitCompletion _ _ => linkKinds
  | .readCompletionTimeout _ => .clock :: .combine :: loadKinds
  | .settleDeadline _ => .clock :: .edit :: solveKinds
  | .orphanExpiry _ => .clock :: dropKinds ++ dozeKinds
  | .stragglerExpiry _ => .clock :: lossKinds
  | .solveBegin => solveKinds
  | .solveCompletion => .solver :: steerKinds ++ finishKinds ++ arbitrateKinds ++ endKinds
  | .steeringRetry _ => arbitrateKinds
  | .combineGrant => grantKinds
  | .combineCompletion _ _ => .combine :: .rejoin :: deliverKinds ++ finishKinds ++ arbitrateKinds ++ endKinds
  | .drainFinish _ => finishKinds ++ arbitrateKinds ++ endKinds
  | .idleDeadlineExpiry => .clock :: dozeKinds
  | .dozeEntry => dozeKinds
  | .holdoffExpiry => [.clock, .event]

theorem eq_of_next {s t : State} (h : (Host.Outcome.next s : Host.Outcome State Fault Refusal) = .next t) : s = t := by
  injection h

/-- A command that tests its operand first answers its next state where the operand is well-formed. -/
theorem eq_of_next_if {b : Bool} {s t : State}
    (h : (if b then Host.Outcome.next s else .refused .illFormed : Host.Outcome State Fault Refusal) = .next t) :
    s = t := by
  cases b
  · cases h
  · exact eq_of_next h

/-- Every command is a run of acts of its kinds. -/
theorem exec_work {c : Instr} {s t : State} (h : exec c s = .next t) : Work (commandKinds c) s t := by
  cases c <;> dsimp only [commandKinds]
  case start =>
    obtain rfl := eq_of_next h
    split
    · split
      · exact (rejectStart_work _ _ s).mono
      · exact (Work.act (engine_act s .starting s.control.cause (some s.now) s.control.reloadAt)).trans
          (Work.act (.read _ _ _))
    · exact Work.refl s
  case stop =>
    obtain rfl := eq_of_next h
    split
    · exact (enterStopping_work s).mono.trans (stopRun_work _).mono
    · exact Work.refl s
  case reload =>
    obtain rfl := eq_of_next h
    split
    · exact (Work.act (engine_act s s.control.engine s.control.cause s.control.startReadAt (some s.now))).trans
        (Work.act (.read _ _ _))
    · exact Work.refl s
  case wake =>
    obtain rfl := eq_of_next h
    split
    · refine Work.trans ?_ (foldl_work (fun t w => (wakeWalker_work w t).mono) _ _)
      split
      · exact (leaveDoze_work s).mono
      · exact Work.refl s
    · exact Work.refl s
  case reset =>
    obtain rfl := eq_of_next h
    refine Work.act (.reset s s.control.anchor _ s.control.fenceLock (.inr rfl) ?_)
    split
    · exact .inr rfl
    · exact .inl rfl
  case coldReset =>
    obtain rfl := eq_of_next h
    exact Work.act (.reset s 0 State.reset.control.fences false (.inl rfl) (.inl rfl))
  case anchorRegisterWrite v =>
    obtain rfl := eq_of_next h
    split
    · exact Work.act (.anchor s _ (anchorAligned_mod v))
    · exact Work.refl s
  case eventsRead =>
    obtain rfl := eq_of_next h
    exact Work.act (.event s { s.events with bits := 0 } [.reply _] (by simp))
  case ignoredRegisterWrite offset width value =>
    obtain rfl := eq_of_next_if h
    exact Work.refl s
  case startReadCompletion r =>
    obtain rfl := eq_of_next_if h
    split
    · exact finishStart_work r s
    · exact Work.refl s
  case reloadReadCompletion r =>
    obtain rfl := eq_of_next_if h
    split
    · exact finishReload_work r s
    · exact Work.refl s
  case leaveToTake w =>
    obtain rfl := eq_of_next h
    split
    · exact takeLeave_work w s
    · exact Work.refl s
  case orderTake r =>
    obtain rfl := eq_of_next_if h
    exact takeRecord_work (fun a image t => (intakeUnit_work a image t).mono) .order r s
  case noteTake r =>
    obtain rfl := eq_of_next_if h
    exact takeRecord_work (fun a image t => (noteUnit_work a image t).mono) .note r s
  case blankTake p r =>
    obtain rfl := eq_of_next_if h
    exact takeRecord_work (fun a image t => (blankUnit_work p a image t).mono) (.blank p) r s
  case revisitDeadline w =>
    obtain rfl := eq_of_next h
    split
    · split
      · exact Work.refl s
      · exact (reachTime_work _ s).mono.trans (issueRevisit_work w _).mono
    · exact Work.refl s
  case revisitCompletion w r =>
    obtain rfl := eq_of_next_if h
    split
    · split
      · exact Work.act (.halt s _)
      · exact actOnRevisit_work w _ s
    · exact Work.refl s
  case readCompletionTimeout read =>
    obtain rfl := eq_of_next h
    split
    · split
      · exact (reachTime_work _ s).mono.trans (finishStart_work _ _).mono
      · exact Work.refl s
    · split
      · exact (reachTime_work _ s).mono.trans (finishReload_work _ _).mono
      · exact Work.refl s
    · split
      · exact (reachTime_work _ s).mono.trans (Work.act (.halt _ _))
      · exact Work.refl s
    · split
      · exact (reachTime_work _ s).mono.trans (Work.act (.combine _ _))
      · exact Work.refl s
  case settleDeadline c =>
    obtain rfl := eq_of_next h
    split
    · exact (reachTime_work _ s).mono.trans (settleAtDeadline_work c _).mono
    · exact Work.refl s
  case orphanExpiry i =>
    obtain rfl := eq_of_next h
    split
    · exact Work.trans ((reachTime_work _ s).mono.trans (expireOrphans_work _).mono) (enterDoze_work _).mono
    · exact Work.refl s
  case stragglerExpiry c =>
    obtain rfl := eq_of_next h
    split
    · split
      · exact Work.trans ((reachTime_work _ s).mono.trans (modifyContext_work c _ _).mono) (resolveAgain_work c _).mono
      · exact Work.refl s
    · exact Work.refl s
  case solveBegin =>
    obtain rfl := eq_of_next h
    split
    · exact beginNext_work s
    · exact Work.refl s
  case solveCompletion =>
    obtain rfl := eq_of_next h
    split
    · exact (Work.act (.solver s none)).trans
        (inOrder_cons_work (fun t => (actOnSolve_work _ t).mono) (inOrder_cons_work (fun t => (finishIfDue_work _ t).mono)
        (inOrder_cons_work (fun t => (beginNext_work t).mono) (inOrder_cons_work (fun t => (arbitrate_work t).mono)
        (inOrder_one_work fun t => (endEvent_work t).mono)))) _)
    · exact Work.refl s
  case steeringRetry p =>
    obtain rfl := eq_of_next h
    split
    · exact Work.trans (Work.trans (Work.trans (Work.act (.retry s _))
        (foldl_work (fun t c => (attemptSteering_work c t).mono) _ _)) (reevaluate_work _).mono) (grantNext_work _).mono
    · exact Work.refl s
  case combineGrant =>
    obtain rfl := eq_of_next h
    split
    · exact grantNext_work s
    · exact Work.refl s
  case combineCompletion reads fault =>
    change execCombineCompletion reads fault s = .next t at h
    unfold execCombineCompletion at h
    split at h
    · obtain rfl := eq_of_next_if h
      exact (Work.act (.combine s none)).trans
        (inOrder_cons_work (fun t => (actOnCombine_work _ _ _ t).mono)
        (inOrder_cons_work (fun t => (finishIfDue_work _ t).mono)
        (inOrder_cons_work (fun t => (retryWaiting_work t).mono) (inOrder_cons_work (fun t => (reevaluate_work t).mono)
        (inOrder_cons_work (fun t => (endOfTurn_work _ t).mono) (inOrder_cons_work (fun t => (arbitrate_work t).mono)
        (inOrder_one_work fun t => (endEvent_work t).mono)))))) _)
    · obtain rfl := eq_of_next h
      exact Work.refl s
  case drainFinish c =>
    obtain rfl := eq_of_next h
    split
    · exact inOrder_cons_work (fun t => (finishContext_work c t).mono) (inOrder_cons_work (fun t => (arbitrate_work t).mono)
        (inOrder_one_work fun t => (endEvent_work t).mono)) s
    · exact Work.refl s
  case idleDeadlineExpiry =>
    obtain rfl := eq_of_next h
    split
    · rename_i d _ running
      refine Work.trans (Work.trans (reachTime_work _ s).mono (Work.act (.engine _ s.control.engine s.control.cause
        s.control.startReadAt s.control.reloadAt none true fun clear zero => ?_))) (enterDoze_work _).mono
      exact absurd (clear zero).1 (by simp [running])
    · exact Work.refl s
  case dozeEntry =>
    obtain rfl := eq_of_next h
    exact enterDoze_work s
  case holdoffExpiry =>
    obtain rfl := eq_of_next h
    split
    · exact Work.refl s
    · exact (reachTime_work _ s).mono.trans (expireHoldoff_work _).mono

/-- A step is a command on the state with its queue cut or kept, or a tick. -/
theorem step_cases {s t : State} (h : step s = .next t) :
    (∃ c rest, s.pending = c :: rest ∧ exec c { s with pending := rest } = .next t) ∨
      (∃ c, exec c s = .next t) ∨ t = tick s := by
  unfold step at h
  split at h
  · exact .inl ⟨_, _, ‹_›, h⟩
  · split at h
    · exact .inr (.inl ⟨_, h⟩)
    · exact .inr (.inr (eq_of_next h).symm)

/-- What every command, a cut of the queue and a tick keep, every step keeps. -/
theorem step_keeps {P : State → Prop} (exec_keeps : ∀ c s t, exec c s = .next t → P s → P t)
    (cut : ∀ s rest, P s → P { s with pending := rest }) (ticks : ∀ s, P s → P (tick s)) {s t : State} (h0 : P s)
    (h : step s = .next t) : P t := by
  rcases step_cases h with ⟨c, rest, _, e⟩ | ⟨c, e⟩ | rfl
  · exact exec_keeps c _ t e (cut s rest h0)
  · exact exec_keeps c s t e h0
  · exact ticks s h0

end Sys2Proof.Proofs

/-! PROOFS. What every step keeps, from the acts: the log and the queue, the requests inside the fences and their pages,
what is loaded, and the tags. -/

namespace Sys2Proof.Proofs

open Sys2Proof Sys2Proof.Machine

-- In order: declarations that run `decide` side by side wait for each other, each on a thread of its own.
set_option Elab.async false

/-! ## A halt, as an update -/

/-- A halt changes the engine, the walkers and the event unit, and sends one message at most (R162). -/
theorem halt_cases (c : Cause) (s : State) :
    (s.halted = true ∧ halt c s = s) ∨ (s.halted = false ∧ ∃ ev os, (∀ o ∈ os, o = .msi) ∧ halt c s = { s with
      control := { s.control with
        engine := .halted, cause := c, reloadAt := none, idleDeadline := none, idleElapsed := false }
      orderWalker := Walker.rest, noteWalker := Walker.rest, blankWalkers := Vector.replicate 32 Walker.rest
      events := ev, out := s.out ++ os }) := by
  unfold halt
  split
  · exact .inl ⟨‹_›, rfl⟩
  · refine .inr ⟨by simpa using ‹¬s.halted = true›, ?_⟩
    dsimp only
    obtain ⟨ev, e | e⟩ := raise_spec { idleWalkers s with control := { (idleWalkers s).control with
      engine := .halted, cause := c, reloadAt := none, idleDeadline := none, idleElapsed := false } } .engineStopped
    · exact ⟨ev, [], by simp, by rw [e]; simp [idleWalkers]⟩
    · exact ⟨ev, [.msi], by simp, by rw [e]; simp [idleWalkers]⟩

/-! ## The queue and the log -/

/-- The queue and the MSI-enabled input as they were, the clock not turned back, no output taken back. -/
def LogKept (s t : State) : Prop :=
  t.pending = s.pending ∧ t.msiInput = s.msiInput ∧ s.now ≤ t.now ∧ s.out <+: t.out

theorem LogKept.refl (s : State) : LogKept s s := ⟨rfl, rfl, le_rfl, List.prefix_refl _⟩

theorem LogKept.of_out {s t : State} (pending : t.pending = s.pending) (msi : t.msiInput = s.msiInput)
    (now : t.now = s.now) (os : List Output) (out : t.out = s.out ++ os) : LogKept s t :=
  ⟨pending, msi, now.ge, os, out.symm⟩

theorem Act.logKept {k : Kind} {s t : State} (a : Act k s t) : LogKept s t := by
  cases a with
  | clock _ u later => exact ⟨rfl, rfl, later, List.prefix_refl _⟩
  | read _ a len => exact .of_out rfl rfl rfl _ rfl
  | write _ a bytes permitted => exact .of_out rfl rfl rfl _ rfl
  | event _ ev os silent => exact .of_out rfl rfl rfl _ rfl
  | halt _ c =>
    rcases halt_cases c s with ⟨_, e⟩ | ⟨_, ev, os, _, e⟩ <;> rw [e]
    · exact .refl s
    · exact .of_out rfl rfl rfl _ rfl
  | _ => exact ⟨rfl, rfl, le_rfl, List.prefix_refl _⟩

theorem Work.logKept {K : List Kind} {s t : State} (w : Work K s t) : LogKept s t :=
  w.keeps (P := LogKept s) (fun _ _ _ _ act ⟨pending, msi, now, out⟩ =>
    have ⟨pending', msi', now', out'⟩ := act.logKept
    ⟨pending'.trans pending, msi'.trans msi, now.trans now', out.trans out'⟩) (.refl s)

/-- Settles O2: no act touches the queue or the input, turns the clock back or takes back an output. -/
theorem commandsKeepQueueAndLog : Obligations.CommandsKeepQueueAndLog := by
  unfold Obligations.CommandsKeepQueueAndLog
  exact fun c s t h => (exec_work h).logKept

/-! ## The fences, byte by byte (R163) -/

theorem covers_iff (w : FenceWindow) (b : Nat) :
    w.covers b = true ↔ w.enabled = true ∧ w.base.toNat ≤ b ∧ b < w.limit.toNat := by
  simp [FenceWindow.covers, and_assoc]

/-- A stronger test that fails on an entry that passed counts fewer. -/
theorem countP_lt_of_imp {α : Type} {p q : α → Bool} {l : List α} (imp : ∀ x ∈ l, p x = true → q x = true) {a : α}
    (mem : a ∈ l) (not : ¬p a = true) (now : q a = true) : l.countP p < l.countP q := by
  obtain ⟨l₁, l₂, rfl⟩ := List.append_of_mem mem
  have left := List.countP_mono_left (p := p) (q := q) (l := l₁) fun x h => imp x (by simp [h])
  have right := List.countP_mono_left (p := p) (q := q) (l := l₂) fun x h => imp x (by simp [h])
  simp [not, now]
  omega

/-- The search for the covering windows needs one turn for each window that ends past its place. -/
theorem coveredFrom_iff (fences : List FenceWindow) (stop fuel a : Nat)
    (enough : fences.countP (fun w => decide (a < w.limit.toNat)) ≤ fuel) :
    coveredFrom fences fuel a stop = true ↔ ∀ b, a ≤ b → b < stop → ∃ w ∈ fences, w.covers b = true := by
  induction fuel generalizing a with
  | zero =>
    have past : ∀ w ∈ fences, ¬a < w.limit.toNat := by
      simpa [List.countP_eq_zero] using Nat.le_zero.1 enough
    rw [coveredFrom, decide_eq_true_iff]
    refine ⟨fun done b low high => absurd high (by omega), fun all => ?_⟩
    by_contra more
    obtain ⟨w, mem, covers⟩ := all a le_rfl (by omega)
    exact past w mem ((covers_iff w a).1 covers).2.2
  | succ fuel ih =>
    rw [coveredFrom]
    split
    · exact ⟨fun _ b low high => absurd high (by omega), fun _ => rfl⟩
    · split
      · rename_i more none
        refine ⟨fun h => absurd h (by simp), fun all => ?_⟩
        obtain ⟨w, mem, covers⟩ := all a le_rfl (by omega)
        exact absurd covers (List.find?_eq_none.1 none w mem)
      · rename_i w found
        obtain ⟨enabled, low, high⟩ := (covers_iff w a).1 (by simpa using List.find?_some found)
        have mem := List.mem_of_find?_eq_some found
        rw [ih]
        · refine ⟨fun all b ge lt => ?_, fun all b ge lt => all b (by omega) lt⟩
          by_cases inside : b < w.limit.toNat
          · exact ⟨w, mem, (covers_iff w b).2 ⟨enabled, by omega, inside⟩⟩
          · exact all b (by omega) lt
        · refine Nat.le_of_lt_succ (lt_of_lt_of_le ?_ enough)
          refine countP_lt_of_imp (fun v _ h => ?_) mem (by simp) (by simpa using high)
          simp only [decide_eq_true_eq] at h ⊢
          omega

theorem covered_iff (fences : List FenceWindow) (a len : Nat) :
    covered fences a len = true ↔ ∀ b, a ≤ b → b < a + len → ∃ w ∈ fences, w.covers b = true :=
  coveredFrom_iff fences (a + len) fences.length a List.countP_le_length

theorem checkingOn_iff (fences : List FenceWindow) : checkingOn fences = true ↔ ∃ w ∈ fences, w.enabled = true := by
  simp [checkingOn]

theorem writePermitted_iff (s : State) (a len : Nat) :
    writePermitted s a len = true ↔ checkingOn s.fenceList = false ∨
      ∀ b, a ≤ b → b < a + len → ∃ w ∈ s.fenceList, w.covers b = true := by
  rw [writePermitted, Bool.or_eq_true, covered_iff]
  simp

theorem mem_vector_iff {α : Type} {n : Nat} {v : Vector α n} {P : α → Prop} :
    (∃ x ∈ v.toList, P x) ↔ ∃ i : Fin n, P v[i] := by
  simp only [Vector.mem_toList_iff, Vector.mem_iff_getElem]
  constructor
  · rintro ⟨x, ⟨i, h, rfl⟩, px⟩
    exact ⟨⟨i, h⟩, px⟩
  · rintro ⟨i, px⟩
    exact ⟨_, ⟨i.val, i.isLt, rfl⟩, px⟩

/-- Settles O19: the search passes window after window, so it ends at the first byte that none covers. -/
theorem fencesArePerByte : Obligations.FencesArePerByte := by
  unfold Obligations.FencesArePerByte
  intro s a len
  have off : checkingOn s.fenceList = false ↔ ∀ i : Fin 4, (s.control.fences[i]).enabled = false := by
    rw [← Bool.not_eq_true, checkingOn_iff, State.fenceList, mem_vector_iff]
    simp
  rw [writePermitted_iff, off]
  simp only [State.fenceList, covers_iff, mem_vector_iff]

/-! ## The requests (R163, R171) -/

/-- A piece of a request lies inside it and in one page. -/
theorem mem_splitFrom {fuel a len : Nat} {p : Nat × Nat} (mem : p ∈ splitFrom fuel a len) :
    a ≤ p.1 ∧ p.1 + p.2 ≤ a + len ∧ p.1 % 4096 + p.2 ≤ 4096 := by
  induction fuel generalizing a len with
  | zero => simp [splitFrom] at mem
  | succ fuel ih =>
    unfold splitFrom at mem
    split at mem
    · simp at mem
    · dsimp only at mem
      rcases List.mem_cons.1 mem with rfl | later
      · dsimp only
        omega
      · have := ih later
        omega

theorem requestAddress_inOnePage {a n : Nat} (page : a % 4096 + n ≤ 4096) :
    requestAddress a % 4096 + n ≤ 4096 ∧ requestAddress a + n ≤ 2 ^ 64 := by
  have same := requestAddress_page a
  have small := requestAddress_lt a
  omega

theorem slice_length_le (image : List Byte) (off len : Nat) : (slice image off len).length ≤ len := by
  simp [slice]

theorem inOnePage_of_mem_readRequests {a len : Nat} {o : Output} (mem : o ∈ readRequests a len) : o.inOnePage := by
  obtain ⟨p, piece, rfl⟩ := List.mem_map.1 mem
  exact requestAddress_inOnePage (mem_splitFrom piece).2.2

theorem isWrite_of_mem_readRequests {a len : Nat} {o : Output} (mem : o ∈ readRequests a len) : o.isWrite = false := by
  obtain ⟨p, _, rfl⟩ := List.mem_map.1 mem
  rfl

theorem inOnePage_of_mem_writeRequests {a : Nat} {bytes : List Byte} {o : Output} (mem : o ∈ writeRequests a bytes) :
    o.inOnePage := by
  obtain ⟨p, piece, rfl⟩ := List.mem_map.1 mem
  have page := (mem_splitFrom piece).2.2
  have short := slice_length_le bytes (p.1 - a) p.2
  exact requestAddress_inOnePage (by omega)

/-- A permitted write's requests lie inside the fences: a window ends within the address space, so that what it covers
goes out at its own address (R163, R171). -/
theorem insideFences_of_mem_writeRequests {s : State} {a : Nat} {bytes : List Byte}
    (permitted : writePermitted s a bytes.length = true) {o : Output} (mem : o ∈ writeRequests a bytes) :
    o.insideFences s.fenceList := by
  obtain ⟨p, piece, rfl⟩ := List.mem_map.1 mem
  obtain ⟨low, high, -⟩ := mem_splitFrom piece
  intro checking b ge lt
  have all := ((writePermitted_iff s a bytes.length).1 permitted).resolve_left (by simp [checking])
  have short := slice_length_le bytes (p.1 - a) p.2
  obtain ⟨w, _, covers⟩ := all p.1 low (by omega)
  have inside := ((covers_iff w p.1).1 covers).2.2
  rw [requestAddress_inside p.1 (by have := w.limit.isLt; omega)] at ge lt
  exact all b (by omega) (by omega)

theorem insideFences_of_not_write {fences : List FenceWindow} {o : Output} (h : o.isWrite = false) :
    o.insideFences fences := by
  cases o with
  | write a bytes => cases h
  | read | msi | reply => trivial

/-- The kinds that load fences. -/
abbrev fenceKinds : List Kind := [.load, .reset]

theorem Act.fences_eq {k : Kind} {s t : State} (a : Act k s t) (hk : k ∉ fenceKinds) :
    t.control.fences = s.control.fences := by
  cases a with
  | halt _ c => rcases halt_cases c s with ⟨_, e⟩ | ⟨_, ev, os, _, e⟩ <;> rw [e]
  | load | reset => exact absurd (by decide) hk
  | _ => rfl

/-- What an act issues: each output in one page, a write only as a permitted write. -/
theorem Act.issues {k : Kind} {s t : State} (a : Act k s t) : ∃ os, t.out = s.out ++ os ∧
    ∀ o ∈ os, o.inOnePage ∧ o.insideFences s.fenceList ∧ (k ≠ .write → o.isWrite = false) := by
  have quiet {os : List Output} (h : ∀ o ∈ os, o = .msi ∨ ∃ v, o = .reply v) :
      ∀ o ∈ os, o.inOnePage ∧ o.insideFences s.fenceList ∧ (k ≠ .write → o.isWrite = false) := fun o mem => by
    rcases h o mem with rfl | ⟨v, rfl⟩ <;> exact ⟨trivial, trivial, fun _ => rfl⟩
  cases a with
  | read _ a len =>
    exact ⟨_, rfl, fun o mem => ⟨inOnePage_of_mem_readRequests mem,
      insideFences_of_not_write (isWrite_of_mem_readRequests mem), fun _ => isWrite_of_mem_readRequests mem⟩⟩
  | write _ a bytes permitted =>
    exact ⟨_, rfl, fun o mem => ⟨inOnePage_of_mem_writeRequests mem, insideFences_of_mem_writeRequests permitted mem,
      fun h => absurd rfl h⟩⟩
  | event _ ev os silent => exact ⟨os, rfl, quiet silent⟩
  | halt _ c =>
    rcases halt_cases c s with ⟨_, e⟩ | ⟨_, ev, os, messages, e⟩ <;> rw [e]
    · exact ⟨[], by simp, by simp⟩
    · exact ⟨os, rfl, quiet fun o mem => .inl (messages o mem)⟩
  | _ => exact ⟨[], (List.append_nil _).symm, by simp⟩

theorem Work.issues {K : List Kind} {s t : State} (w : Work K s t) : ∃ os, t.out = s.out ++ os ∧
    ∀ o ∈ os, o.inOnePage ∧ (Kind.write ∉ K → o.isWrite = false) ∧
      ((∀ k ∈ K, k ∉ fenceKinds) → o.insideFences s.fenceList) := by
  induction w with
  | refl => exact ⟨[], by simp, by simp⟩
  | @tail u v before step ih =>
    obtain ⟨k, mem, act⟩ := step
    obtain ⟨os, out, good⟩ := ih
    obtain ⟨os', out', good'⟩ := act.issues
    have fences (loads : ∀ k ∈ K, k ∉ fenceKinds) : u.fenceList = s.fenceList :=
      congrArg Vector.toList (Work.same (fun u => u.control.fences) before fun k mem a b act =>
        act.fences_eq (loads k mem))
    refine ⟨os ++ os', by rw [out', out, List.append_assoc], fun o h => ?_⟩
    rcases List.mem_append.1 h with h | h
    · exact good o h
    · obtain ⟨page, inside, write⟩ := good' o h
      exact ⟨page, fun quiet => write fun e => quiet (e ▸ mem), fun loads => fences loads ▸ inside⟩

theorem newOutputs_of_append {s t : State} {os : List Output} (h : t.out = s.out ++ os) : newOutputs s t = os := by
  simp [newOutputs, h]

/-- No command both loads fences and writes. -/
theorem commandKinds_loads_or_writes (c : Instr) :
    Kind.write ∉ commandKinds c ∨ ∀ k ∈ commandKinds c, k ∉ fenceKinds := by
  cases c <;> dsimp only [commandKinds] <;> decide

theorem not_walking_of_not_working {s : State} (h : s.working = false) : s.walking = false := by
  simp only [State.working, Bool.or_eq_false_iff] at h
  exact h.1

/-- Outside RUNNING, DOZING and STOPPING a command that could write changes nothing (R153). -/
theorem exec_not_working {c : Instr} {s t : State} (idle : s.working = false) (h : exec c s = .next t) :
    Kind.write ∉ commandKinds c ∨ t = s := by
  have still := not_walking_of_not_working idle
  cases c
  case stop => obtain rfl := eq_of_next h; exact .inr (by simp [still])
  case orderTake r => obtain rfl := eq_of_next_if h; exact .inr (by simp [takeRecord, still])
  case noteTake r => obtain rfl := eq_of_next_if h; exact .inr (by simp [takeRecord, still])
  case blankTake p r => obtain rfl := eq_of_next_if h; exact .inr (by simp [takeRecord, still])
  case orphanExpiry i => obtain rfl := eq_of_next h; exact .inr (by simp [still])
  case solveCompletion => obtain rfl := eq_of_next h; exact .inr (by simp [idle])
  case combineCompletion reads fault =>
    change execCombineCompletion reads fault s = .next t at h
    simp only [execCombineCompletion, idle] at h
    exact .inr (eq_of_next h).symm
  case drainFinish c => obtain rfl := eq_of_next h; exact .inr (by simp [idle])
  all_goals exact .inl (by dsimp only [commandKinds]; decide)

/-- Settles O20: each act issues what lies in one page and inside the fences it finds, and these are the step's. -/
theorem writesStayInsideFences : Obligations.WritesStayInsideFences := by
  unfold Obligations.WritesStayInsideFences
  have command {c : Instr} {s t : State} (h : exec c s = .next t) : ∃ os, t.out = s.out ++ os ∧
      ∀ o ∈ os, o.inOnePage ∧ (s.working = false → o.isWrite = false) ∧ o.insideFences s.fenceList := by
    obtain ⟨os, out, good⟩ := (exec_work h).issues
    refine ⟨os, out, fun o mem => ?_⟩
    obtain ⟨page, quiet, inside⟩ := good o mem
    refine ⟨page, fun idle => ?_, (commandKinds_loads_or_writes c).elim
      (fun silent => insideFences_of_not_write (quiet silent)) inside⟩
    rcases exec_not_working idle h with silent | rfl
    · exact quiet silent
    · rw [List.self_eq_append_right.1 out] at mem
      cases mem
  have each {s t : State} (h : step s = .next t) : ∀ o ∈ newOutputs s t,
      o.inOnePage ∧ (s.working = false → o.isWrite = false) ∧ o.insideFences s.fenceList := by
    rcases step_cases h with ⟨c, rest, _, e⟩ | ⟨c, e⟩ | rfl
    · obtain ⟨os, out, good⟩ := command e
      rwa [newOutputs_of_append (s := s) out]
    · obtain ⟨os, out, good⟩ := command e
      rwa [newOutputs_of_append out]
    · simp [newOutputs]
  exact ⟨fun s t h o mem => (each h o mem).2.2, fun s t h idle o mem => (each h o mem).2.1 idle,
    fun s t h o mem => (each h o mem).1⟩

/-! ## Tags (R39) -/

/-- The kinds that touch the context table. -/
abbrev contextKinds : List Kind := [.edit, .free, .accept, .reset]

theorem Act.contexts_eq {k : Kind} {s t : State} (a : Act k s t) (hk : k ∉ contextKinds) :
    t.contexts = s.contexts := by
  cases a with
  | halt _ c => rcases halt_cases c s with ⟨_, e⟩ | ⟨_, ev, os, _, e⟩ <;> rw [e]
  | edit | free | accept | reset => exact absurd (by decide) hk
  | _ => rfl

theorem Work.contexts_eq {K : List Kind} {s t : State} (w : Work K s t)
    (hK : ∀ k ∈ K, k ∉ contextKinds := by decide) : t.contexts = s.contexts :=
  w.same State.contexts fun k mem _ _ act => act.contexts_eq (hK k mem)

theorem getElem_set_cases {n : Nat} {v : Vector (Option Context) n} {c d : Fin n} {x : Option Context} {y : Context}
    (h : (v.set c x)[d] = some y) : (d = c ∧ x = some y) ∨ (d ≠ c ∧ v[d] = some y) := by
  by_cases e : d = c
  · subst e; exact .inl ⟨rfl, by simpa using h⟩
  · refine .inr ⟨e, ?_⟩
    have ne : c.val ≠ d.val := fun h => e (Fin.ext h.symm)
    simpa [Vector.getElem_set, ne] using h

/-- A context changed, and its tag with it, to one that no other context holds. -/
theorem tagsDistinct_set {s : State} (distinct : s.tagsDistinct) (c : CtxId) (x : Option Context)
    (fresh : ∀ z, x = some z → ∀ (d : CtxId) (y : Context), d ≠ c → s.contexts[d] = some y → y.tag ≠ z.tag) :
    (setContext c x s).tagsDistinct := by
  intro d e y z hy hz tag
  rcases getElem_set_cases hy with ⟨rfl, ey⟩ | ⟨nd, kept⟩ <;> rcases getElem_set_cases hz with ⟨rfl, ez⟩ | ⟨ne, kept'⟩
  · rfl
  · exact absurd tag.symm (fresh y ey e z ne kept')
  · exact absurd tag (fresh z ez d y nd kept)
  · exact distinct d e y z kept kept' tag

theorem Act.tagsDistinct {k : Kind} {s t : State} (a : Act k s t) (distinct : s.tagsDistinct) : t.tagsDistinct := by
  by_cases touched : k ∈ contextKinds
  · cases a with
    | edit _ c x y used tag =>
      refine tagsDistinct_set distinct c _ fun z e d w ne hw same => ?_
      cases e
      exact ne (distinct d c w x hw used (same.trans tag))
    | free _ c => exact tagsDistinct_set distinct c none fun z e => by cases e
    | accept _ c x _ fresh =>
      refine tagsDistinct_set distinct c _ fun z e d y _ hy => ?_
      cases e
      exact fresh d y hy
    | reset =>
      intro c d x y hx
      simp [resetBlocks, State.reset] at hx
    | _ => exact absurd touched (by decide)
  · intro c d x y
    rw [a.contexts_eq touched]
    exact distinct c d x y

/-- Settles O59: a context keeps its tag, and an order is accepted under a tag that no context in use holds. -/
theorem tagsStayDistinct : Obligations.TagsStayDistinct := by
  unfold Obligations.TagsStayDistinct
  exact fun s t h0 h => step_keeps (P := State.tagsDistinct)
    (fun c s t e => (exec_work e).keeps fun k _ a b act => act.tagsDistinct) (fun _ _ h => h) (fun _ h => h) h0 h

end Sys2Proof.Proofs

/-! PROOFS. What is loaded stays sound (R7, R127, R130, R155, R157, R160, R163). Each act but the load of an image keeps
all of it; an image that passes the checks brings only what they let in; and the two anchor reads' completions, which
load an image and then set the idle deadline anew, leave no deadline under a loaded idle-to-doze value of 0. -/

namespace Sys2Proof.Proofs

open Sys2Proof Sys2Proof.Machine

-- In order: declarations that run `decide` side by side wait for each other, each on a thread of its own.
set_option Elab.async false

/-! ## What an image can hold -/

theorem field_lt (image : List Byte) (off width : Nat) : field image off width < 256 ^ width := by
  induction width generalizing off with
  | zero => simp
  | succ width ih =>
    rw [field_succ, Nat.pow_succ]
    have byte := (image.getD off 0#8).isLt
    have rest := ih (off + 1)
    omega

theorem readTimers_inRange (header : List Byte) : (readTimers header).inRange := by
  simp only [Timers.inRange, readTimers, clamp]
  split <;> omega

/-- The list of separators rises where no neighbours fall. -/
theorem seps_le_of_not_decreases {table : SteeringTable} (h : table.decreases = false) :
    ∀ i j : Fin 31, i ≤ j → table.seps[i] ≤ table.seps[j] := by
  have neighbours (i : Nat) (lt : i < 30) : table.seps[i] ≤ table.seps[i + 1] := by
    have := List.any_eq_false.1 h i (List.mem_range.2 lt)
    simpa [show i < 31 by omega, show i + 1 < 31 by omega] using this
  rintro ⟨i, hi⟩ ⟨j, hj⟩ le
  induction j, (show i ≤ j from le) using Nat.le_induction with
  | base => exact le_rfl
  | succ j ge ih => exact (ih (by omega) ge).trans (neighbours j (by omega))

theorem readSteering_sound (region lanes : List Byte) (h : (readSteering region lanes).decreases = false) :
    (readSteering region lanes).sound := by
  have base := field_lt region 0x80 2
  refine ⟨fun i => ?_, seps_le_of_not_decreases h, by simpa [readSteering] using base, ?_⟩
  · have := field_lt region (2 * i.val) 2
    simpa [readSteering] using this
  · simp only [readSteering, clampSpread]
    omega

theorem readFence_aligned (entry : List Byte) :
    (readFence entry).base.toNat % 4096 = 0 ∧ (readFence entry).limit.toNat % 4096 = 0 := by
  simp only [readFence, BitVec.toNat_ofNat]
  omega

/-- A fence window lies on 4 KiB boundaries (R163). -/
def FencesAligned (fences : Vector FenceWindow 4) : Prop :=
  ∀ i : Fin 4, (fences[i]).base.toNat % 4096 = 0 ∧ (fences[i]).limit.toNat % 4096 = 0

theorem readAnchor_fencesAligned (image : List Byte) : FencesAligned (readAnchor image).fences := fun i => by
  simpa [readAnchor] using readFence_aligned _

/-- An image without a fault passes all four checks (R156). -/
theorem passes_of_imageFault {s : State} {img : AnchorImage} (h : imageFault s img = none) :
    (∀ i : Fin 16, (img.profiles[i]).fails = false) ∧ img.steering.decreases = false := by
  unfold imageFault at h
  dsimp only at h
  split at h
  · cases h
  · split at h
    · cases h
    · split at h
      · cases h
      · split at h
        · cases h
        · rename_i profiles order
          refine ⟨fun i => ?_, by simpa using order⟩
          rw [Bool.not_eq_true, List.any_eq_false] at profiles
          simpa using profiles img.profiles[i] (by simp)

/-! ## Each act -/

/-- What is loaded is sound, the idle deadline aside. -/
def TablesSound (s : State) : Prop :=
  s.anchorOk ∧ s.control.timers.inRange ∧ s.control.steering.sound ∧ s.steering.lfsr ≠ 0 ∧
    (∀ i : Fin 16, (s.control.profiles[i]).fails = false) ∧ FencesAligned s.control.fences

theorem loadedSound_iff (s : State) : s.loadedSound ↔ TablesSound s ∧ idleClear s := by
  simp only [State.loadedSound, TablesSound, idleClear, FencesAligned, and_assoc]

theorem tablesSound_loadTables {s : State} {img : AnchorImage} (loadable : Loadable s img) (sound : TablesSound s) :
    TablesSound (loadTables img s) := by
  obtain ⟨anchor, -, -, lfsr, -, fences⟩ := sound
  obtain ⟨⟨image, rfl⟩, fault⟩ := loadable
  obtain ⟨profiles, order⟩ := passes_of_imageFault fault
  refine ⟨anchor, readTimers_inRange image, readSteering_sound _ _ order, lfsr, profiles, ?_⟩
  show FencesAligned (if s.control.fenceLock = true then s.control.fences else (readAnchor image).fences)
  split
  · exact fences
  · exact readAnchor_fencesAligned image

theorem tablesSound_of_reset : TablesSound State.reset := by
  refine ⟨by unfold State.anchorOk; decide, ?_, ⟨by decide, by decide, by decide, by decide⟩, by decide, by decide, ?_⟩
  · unfold Timers.inRange; decide
  · unfold FencesAligned; decide

theorem tablesSound_reset (s : State) {a : BitVec 64} {f : Vector FenceWindow 4} (l : Bool)
    (anchor : a.toNat % 4096 = 0) (fences : FencesAligned f) :
    TablesSound { resetBlocks s with control :=
      { State.reset.control with anchor := a, fences := f, fenceLock := l } } :=
  have ⟨_, timers, steering, lfsr, profiles, _⟩ := tablesSound_of_reset
  ⟨anchor, timers, steering, lfsr, profiles, fences⟩

theorem fencesAligned_reset : FencesAligned State.reset.control.fences :=
  have ⟨_, _, _, _, _, fences⟩ := tablesSound_of_reset
  fences

theorem Act.tablesSound {k : Kind} {s t : State} (a : Act k s t) (sound : TablesSound s) : TablesSound t := by
  cases a with
  | halt _ c => rcases halt_cases c s with ⟨_, e⟩ | ⟨_, ev, os, _, e⟩ <;> rw [e] <;> exact sound
  | load _ img loadable => exact tablesSound_loadTables loadable sound
  | lfsr _ v nonzero =>
    obtain ⟨anchor, timers, steering, lfsr, rest⟩ := sound
    exact ⟨anchor, timers, steering, nonzero lfsr, rest⟩
  | anchor _ v aligned => exact ⟨aligned, sound.2⟩
  | reset _ a f l anchor fences =>
    obtain ⟨aligned, -, -, -, -, held⟩ := sound
    refine tablesSound_reset s l ?_ ?_
    · rcases anchor with rfl | rfl
      · rfl
      · exact aligned
    · rcases fences with rfl | rfl
      · exact fencesAligned_reset
      · exact held
  | _ => exact sound

/-- Every act but the load of an image keeps the idle deadline clear (R160). -/
theorem Act.idleClear {k : Kind} {s t : State} (a : Act k s t) (hk : k ≠ .load) (clear : idleClear s) :
    idleClear t := by
  cases a with
  | halt _ c =>
    rcases halt_cases c s with ⟨_, e⟩ | ⟨_, ev, os, _, e⟩ <;> rw [e]
    · exact clear
    · exact fun _ => ⟨rfl, rfl⟩
  | engine _ e k at₀ at₁ d m h => exact h clear
  | reset _ a f l => exact fun _ => ⟨rfl, rfl⟩
  | load => exact absurd rfl hk
  | _ => exact clear

theorem Work.idleClear {K : List Kind} {s t : State} (w : Work K s t) (clear : idleClear s)
    (hK : ∀ k ∈ K, k ≠ .load := by decide) : idleClear t :=
  w.keeps (P := Proofs.idleClear) (fun k mem _ _ act => act.idleClear (hK k mem)) clear

/-! ## The completions that load -/

/-- A halt leaves no idle deadline (R160, R162). -/
def HaltedClear (s : State) : Prop := s.halted = true → s.control.idleDeadline = none ∧ s.control.idleElapsed = false

theorem Act.haltedClear {k : Kind} {s t : State} (a : Act k s t) (hk : k ∈ linkKinds) (clear : HaltedClear s) :
    HaltedClear t := by
  cases a with
  | halt _ c =>
    rcases halt_cases c s with ⟨_, e⟩ | ⟨_, ev, os, _, e⟩ <;> rw [e]
    · exact clear
    · exact fun _ => ⟨rfl, rfl⟩
  | walkers | read => exact clear
  | _ => exact absurd hk (by decide)

theorem idleClear_startIdle (s : State) : idleClear (startIdle s) := fun zero => ⟨if_pos zero, rfl⟩

theorem idleClear_succeedStart (img : AnchorImage) (s : State) : idleClear (succeedStart img s) := by
  rw [succeedStart_eq, inOrder_step _ _ _ rfl]
  have started : HaltedClear (startWalkers img (startLoaded img s)) :=
    (startWalkers_work img _).keeps (fun k mem _ _ act => act.haltedClear mem) (fun h => Bool.noConfusion h)
  rw [inOrder_cons]
  split
  · rename_i halted
    rw [inOrder_halted _ _ halted]
    exact fun _ => started halted
  · exact (inOrder_one_work giveLeave_work _).idleClear (idleClear_startIdle _)

theorem idleClear_finishStart (r : ReadResult) (s : State) (clear : idleClear s) : idleClear (finishStart r s) := by
  unfold finishStart
  split
  · exact (rejectStart_work _ _ s).idleClear clear
  · dsimp only
    split
    · exact (rejectStart_work _ _ s).idleClear clear
    · exact (rejectStart_work _ _ s).idleClear clear
    · exact idleClear_succeedStart _ s

theorem idleClear_idleAfterReload (s : State) : idleClear (idleAfterReload s) := by
  unfold idleAfterReload
  split
  · exact idleClear_startIdle s
  · rename_i running
    exact fun zero => absurd (.inl zero) running

theorem idleClear_finishReload (r : ReadResult) (s : State) (clear : idleClear s) : idleClear (finishReload r s) := by
  unfold finishReload
  refine (enterDoze_work _).idleClear ?_
  split
  · exact (rejectReload_work _ s).idleClear clear
  · dsimp only
    split
    · exact (rejectReload_work _ s).idleClear clear
    · exact (raise_work _ _).idleClear (idleClear_idleAfterReload _)

/-- Only the anchor reads' completions, and a timeout that may be one, load an image. -/
theorem exec_idleClear {c : Instr} {s t : State} (h : exec c s = .next t) (clear : idleClear s) : idleClear t := by
  cases c
  case startReadCompletion r =>
    obtain rfl := eq_of_next_if h
    split
    · exact idleClear_finishStart r s clear
    · exact clear
  case reloadReadCompletion r =>
    obtain rfl := eq_of_next_if h
    split
    · exact idleClear_finishReload r s clear
    · exact clear
  case readCompletionTimeout read =>
    obtain rfl := eq_of_next h
    split
    · split
      · exact idleClear_finishStart _ _ clear
      · exact clear
    · split
      · exact idleClear_finishReload _ _ clear
      · exact clear
    · split
      · exact Act.idleClear (.halt _ _) (by decide) clear
      · exact clear
    · split
      · exact clear
      · exact clear
  all_goals exact (exec_work h).idleClear clear (by dsimp only [commandKinds]; decide)

/-- Settles O57: the tables act by act, the idle deadline command by command. -/
theorem loadedItemsStaySound : Obligations.LoadedItemsStaySound := by
  unfold Obligations.LoadedItemsStaySound
  refine fun s t h0 h => step_keeps (P := State.loadedSound) (fun c s t e sound => ?_) (fun _ _ h => h) (fun _ h => h) h0 h
  obtain ⟨tables, clear⟩ := (loadedSound_iff s).1 sound
  exact (loadedSound_iff t).2 ⟨(exec_work e).keeps (fun k _ a b act => act.tablesSound) tables, exec_idleClear e clear⟩

end Sys2Proof.Proofs

/-! PROOFS. The walkers, DOZING, the pen and the stocks (R21, R23, R26, R57, R58, R140, R153, R160). Between the
events the units' acts leave the walkers and the engine alone or halt; what ends an event gives the leave and makes the
entry to DOZING that it makes possible. A walker reads a record only with leave, so that its stock has room for it. -/

namespace Sys2Proof.Proofs

open Sys2Proof Sys2Proof.Machine

-- In order: declarations that run `decide` side by side wait for each other, each on a thread of its own.
set_option Elab.async false

/-! ## Effects in order, in a live engine -/

/-- What every effect keeps in an engine not HALTED, the event keeps. -/
theorem inOrder_keeps_live {P : State → Prop} {fs : List (State → State)} {s : State}
    (h : ∀ f ∈ fs, ∀ t, t.halted = false → P t → P (f t)) (h0 : P s) : P (inOrder fs s) := by
  induction fs generalizing s with
  | nil => exact h0
  | cons f fs ih =>
    rw [inOrder_cons]
    refine ih (fun g hg => h g (List.mem_cons_of_mem _ hg)) ?_
    split
    · exact h0
    · exact h f List.mem_cons_self s (by simpa using ‹¬s.halted = true›) h0

theorem inOrder_append (fs gs : List (State → State)) (s : State) :
    inOrder (fs ++ gs) s = inOrder gs (inOrder fs s) := List.foldl_append ..

/-- After all effects but the last the engine is HALTED and the event over, or the last effect ends it. -/
theorem inOrder_last (fs : List (State → State)) (f : State → State) (s : State) :
    (inOrder (fs ++ [f]) s = inOrder fs s ∧ (inOrder fs s).halted = true) ∨
      (inOrder (fs ++ [f]) s = f (inOrder fs s) ∧ (inOrder fs s).halted = false) := by
  rw [inOrder_append, inOrder_cons, inOrder_nil]
  cases h : (inOrder fs s).halted
  · exact .inr ⟨by simp, rfl⟩
  · exact .inl ⟨by simp, rfl⟩

theorem halted_iff (s : State) : s.halted = true ↔ s.control.engine = .halted := by simp [State.halted]

/-! ## The walkers and the contexts in use -/

theorem walkersAtRest_iff (s : State) : s.walkersAtRest ↔ ∀ w, s.walker w = Walker.rest := by
  refine ⟨?_, fun h => ⟨h .order, h .note, ?_⟩⟩
  · rintro ⟨order, note, blank⟩ w
    cases w with
    | order => exact order
    | note => exact note
    | blank p => simp [State.walker, blank]
  · refine Vector.ext fun i hi => ?_
    simpa [State.walker] using h (.blank ⟨i, hi⟩)

theorem contextsInUse_eq_zero_iff (s : State) : contextsInUse s = 0 ↔ ∀ c : CtxId, s.contexts[c] = none := by
  rw [contextsInUse, List.countP_eq_zero]
  constructor
  · intro h c
    have := h s.contexts[c] (by simp)
    simpa using this
  · intro h x mem
    obtain ⟨i, hi, rfl⟩ := Vector.mem_iff_getElem.1 (Vector.mem_toList_iff.1 mem)
    simpa using h ⟨i, hi⟩

theorem contextsInUse_lt_iff (s : State) : contextsInUse s < 48 ↔ ∃ c : CtxId, s.contexts[c] = none := by
  have size : s.contexts.toList.length = 48 := by simp
  have all := List.countP_eq_length (p := Option.isSome) (l := s.contexts.toList)
  have bound := List.countP_le_length (p := Option.isSome) (l := s.contexts.toList)
  rw [contextsInUse]
  constructor
  · intro lt
    by_contra none
    push Not at none
    refine absurd (all.2 fun x mem => ?_) (by omega)
    obtain ⟨i, hi, rfl⟩ := Vector.mem_iff_getElem.1 (Vector.mem_toList_iff.1 mem)
    exact Option.isSome_iff_ne_none.2 (none ⟨i, hi⟩)
  · rintro ⟨c, free⟩
    refine lt_of_le_of_ne (by omega) fun full => ?_
    have := all.1 (by omega) s.contexts[c] (by simp)
    simp [free] at this

/-- Which contexts are in use. -/
def usage (s : State) : Vector Bool 48 := s.contexts.map Option.isSome

theorem contextsInUse_congr {s t : State} (h : usage t = usage s) : contextsInUse t = contextsInUse s := by
  have count (u : State) : contextsInUse u = (usage u).toList.countP id := by
    simp [contextsInUse, usage]
  rw [count, count, h]

/-- How many blanks each stock holds. -/
def stockSizes (s : State) : Vector Nat 32 := s.lanes.map fun l => l.stock.length

theorem stockSizes_getElem (s : State) (p : LaneId) : (stockSizes s)[p] = s.lanes[p].stock.length := by
  simp [stockSizes]

theorem hasLeave_congr {s t : State} (h : usage t = usage s) (h' : stockSizes t = stockSizes s) (w : WalkerId) :
    hasLeave t w = hasLeave s w := by
  cases w with
  | order => simp [hasLeave, contextsInUse_congr h]
  | note => rfl
  | blank p => rw [hasLeave, hasLeave, ← stockSizes_getElem, ← stockSizes_getElem, h']

/-! ## What acts leave of them -/

theorem usage_set {s : State} {c : CtxId} {x y : Context} (used : s.contexts[c] = some x) :
    usage (setContext c (some y) s) = usage s := by
  refine Vector.ext fun i hi => ?_
  simp only [usage, setContext, Vector.getElem_map, Vector.getElem_set]
  split
  · rename_i e
    subst e
    simpa using (congrArg Option.isSome used).symm
  · rfl

theorem Act.usage_eq {k : Kind} {s t : State} (a : Act k s t) (hk : k ∉ [Kind.free, .accept, .reset]) :
    usage t = usage s := by
  by_cases touched : k ∈ contextKinds
  · cases a with
    | edit _ c x y used tag => exact usage_set used
    | free | accept | reset => exact absurd (by decide) hk
    | _ => exact absurd touched (by decide)
  · exact congrArg (Vector.map Option.isSome) (a.contexts_eq touched)

theorem Work.usage_eq {K : List Kind} {s t : State} (w : Work K s t)
    (hK : ∀ k ∈ K, k ∉ [Kind.free, .accept, .reset] := by decide) : usage t = usage s :=
  w.same usage fun k mem _ _ act => act.usage_eq (hK k mem)

theorem stockSizes_of_blank {s : State} {ls : Vector Lane 32}
    (same : ∀ p : LaneId, ls[p].stock.map StockEntry.blank = s.lanes[p].stock.map StockEntry.blank) :
    (ls.map fun l => l.stock.length) = stockSizes s := by
  refine Vector.ext fun i hi => ?_
  have := congrArg List.length (same ⟨i, hi⟩)
  simpa [stockSizes] using this

/-- The kinds that change the number of blanks in a stock. -/
abbrev stockSizeKinds : List Kind := [.unstock, .stock, .reset]

theorem Act.stockSizes_eq {k : Kind} {s t : State} (a : Act k s t) (hk : k ∉ stockSizeKinds) :
    stockSizes t = stockSizes s := by
  cases a with
  | halt _ c => rcases halt_cases c s with ⟨_, e⟩ | ⟨_, ev, os, _, e⟩ <;> rw [e]; rfl
  | marks _ ls same => exact stockSizes_of_blank fun p => (same p).1
  | tails _ ls f same => exact stockSizes_of_blank fun p => by rw [(same p).1]
  | load _ img => exact stockSizes_of_blank fun p => by simp [loadTables]
  | unstock | stock | reset => exact absurd (by decide) hk
  | _ => rfl

theorem Work.stockSizes_eq {K : List Kind} {s t : State} (w : Work K s t)
    (hK : ∀ k ∈ K, k ∉ stockSizeKinds := by decide) : stockSizes t = stockSizes s :=
  w.same stockSizes fun k mem _ _ act => act.stockSizes_eq (hK k mem)

/-- The engine state, the mark, the reload in flight, and the walkers. -/
def gait (s : State) :=
  (s.control.engine, s.control.idleElapsed, s.control.reloadAt, s.orderWalker, s.noteWalker, s.blankWalkers)

/-- The kinds that change the engine or the walkers otherwise than by a halt. -/
abbrev gaitKinds : List Kind := [.engine, .walkers, .reset]

/-- HALTED, with the walkers IDLE (R26, R162). -/
def HaltedAtRest (s : State) : Prop := s.control.engine = .halted ∧ s.walkersAtRest

theorem Act.gait_eq {k : Kind} {s t : State} (a : Act k s t) (hk : k ∉ gaitKinds) :
    gait t = gait s ∨ HaltedAtRest t := by
  cases a with
  | halt _ c =>
    rcases halt_cases c s with ⟨_, e⟩ | ⟨_, ev, os, _, e⟩ <;> rw [e]
    · exact .inl rfl
    · exact .inr ⟨rfl, rfl, rfl, rfl⟩
  | engine | walkers | reset => exact absurd (by decide) hk
  | _ => exact .inl rfl

theorem engine_eq_of_gait {s t : State} (h : gait t = gait s) : t.control.engine = s.control.engine :=
  congrArg Prod.fst h

theorem idleElapsed_eq_of_gait {s t : State} (h : gait t = gait s) : t.control.idleElapsed = s.control.idleElapsed :=
  congrArg (fun g => g.2.1) h

theorem reloadAt_eq_of_gait {s t : State} (h : gait t = gait s) : t.control.reloadAt = s.control.reloadAt :=
  congrArg (fun g => g.2.2.1) h

theorem walker_eq_of_gait {s t : State} (h : gait t = gait s) (w : WalkerId) : t.walker w = s.walker w := by
  simp only [gait, Prod.mk.injEq] at h
  obtain ⟨-, -, -, order, note, blank⟩ := h
  cases w with
  | order => exact order
  | note => exact note
  | blank p => exact congrArg (·[p]) blank

theorem walking_congr {s t : State} (h : t.control.engine = s.control.engine) : t.walking = s.walking := by
  rw [State.walking, State.walking, h]

theorem HaltedAtRest.not_walking {s : State} (h : HaltedAtRest s) : s.walking = false := by
  simp [State.walking, h.1]

/-! ## The parts of the invariant -/

/-- Outside RUNNING and DOZING the walkers are IDLE (R26). -/
def RestOutside (s : State) : Prop := s.walking = false → s.walkersAtRest

/-- No walker has leave that it has not taken (R23). -/
def LeaveTaken (s : State) : Prop :=
  s.walking = true → ∀ w a, (s.walker w).state = .next → (s.walker w).successor = some a → hasLeave s w = false

/-- A DOZING engine is empty (R160). -/
def DozeEmpty (s : State) : Prop := s.control.engine = .dozing → contextsInUse s = 0 ∧ s.pen = []

/-- No entry to DOZING is left to be made (R160). -/
def DozeTaken (s : State) : Prop :=
  ¬(s.control.engine = .running ∧ s.control.idleElapsed = true ∧ s.control.timers.idle ≠ 0 ∧
    contextsInUse s = 0 ∧ s.pen = [] ∧ s.control.reloadAt = none)

theorem walkersSound_iff (s : State) :
    s.walkersSound ↔ RestOutside s ∧ LeaveTaken s ∧ DozeEmpty s ∧ DozeTaken s := by
  simp only [State.walkersSound, RestOutside, walkersAtRest_iff, LeaveTaken, DozeEmpty, DozeTaken]

/-- Where no walker walks the rest of the invariant says nothing. -/
theorem walkersSound_of_rest {s : State} (still : s.walking = false) (rest : s.walkersAtRest) : s.walkersSound := by
  have awake : s.control.engine ≠ .running ∧ s.control.engine ≠ .dozing := by
    constructor <;> intro e <;> simp [State.walking, e] at still
  exact (walkersSound_iff s).2 ⟨fun _ => rest, fun h => absurd h (by simp [still]), fun h => absurd h awake.2,
    fun h => absurd h.1 awake.1⟩

theorem HaltedAtRest.walkersSound {s : State} (h : HaltedAtRest s) : s.walkersSound :=
  walkersSound_of_rest h.not_walking h.2

theorem halt_walkersSound {s : State} (c : Cause) (rest : RestOutside s) : (halt c s).walkersSound := by
  rcases halt_cases c s with ⟨halted, e⟩ | ⟨_, ev, os, _, e⟩ <;> rw [e]
  · have still : s.walking = false := by simp [State.walking, (halted_iff s).1 halted]
    exact walkersSound_of_rest still (rest still)
  · exact HaltedAtRest.walkersSound ⟨rfl, rfl, rfl, rfl⟩

theorem Act.restOutside {k : Kind} {s t : State} (a : Act k s t) (hk : k ∉ gaitKinds) (rest : RestOutside s) :
    RestOutside t := by
  rcases a.gait_eq hk with same | halted
  · intro still
    rw [walking_congr (engine_eq_of_gait same)] at still
    rw [walkersAtRest_iff]
    exact fun w => (walker_eq_of_gait same w).trans ((walkersAtRest_iff s).1 (rest still) w)
  · exact fun _ => halted.2

theorem Act.dozeEmpty {k : Kind} {s t : State} (a : Act k s t) (hk : k ∉ gaitKinds ++ [.accept, .pen])
    (empty : DozeEmpty s) : DozeEmpty t := by
  rcases a.gait_eq (fun h => hk (List.mem_append_left _ h)) with same | halted
  · intro dozing
    obtain ⟨none, pen⟩ := empty ((engine_eq_of_gait same).symm.trans dozing)
    rw [contextsInUse_eq_zero_iff] at none ⊢
    cases a with
    | halt _ c => rcases halt_cases c s with ⟨_, e⟩ | ⟨_, ev, os, _, e⟩ <;> rw [e] <;> exact ⟨none, pen⟩
    | edit _ c x y used => exact absurd (none c) (by simp [used])
    | free _ c =>
      refine ⟨fun d => ?_, pen⟩
      by_cases e : d = c
      · rw [e]; exact setContext_same s c _
      · rw [setContext_other s c d _ e]; exact none d
    | drop _ l sub => exact ⟨none, List.sublist_nil.1 (pen ▸ sub)⟩
    | engine | walkers | reset | accept | pen => exact absurd (by decide) hk
    | _ => exact ⟨none, pen⟩
  · exact fun dozing => absurd (dozing.symm.trans halted.1) (by decide)

/-! ## Commands that leave the walkers' view alone -/

/-- All that the invariant speaks of. -/
def walkView (s : State) := (gait s, usage s, stockSizes s, s.pen, s.control.timers)

theorem walkersSound_congr {s t : State} (h : walkView t = walkView s) (sound : s.walkersSound) : t.walkersSound := by
  simp only [walkView, Prod.mk.injEq] at h
  obtain ⟨same, used, sizes, pen, timers⟩ := h
  have engine := engine_eq_of_gait same
  have count := contextsInUse_congr used
  rw [walkersSound_iff] at sound ⊢
  obtain ⟨rest, leave, empty, taken⟩ := sound
  refine ⟨fun still => ?_, fun walking w a => ?_, fun dozing => ?_, ?_⟩
  · rw [walkersAtRest_iff]
    rw [walking_congr engine] at still
    exact fun w => (walker_eq_of_gait same w).trans ((walkersAtRest_iff s).1 (rest still) w)
  · rw [walking_congr engine] at walking
    rw [walker_eq_of_gait same, hasLeave_congr used sizes]
    exact leave walking w a
  · rw [count, pen]
    exact empty (engine ▸ dozing)
  · rw [DozeTaken, engine, idleElapsed_eq_of_gait same, reloadAt_eq_of_gait same, timers, count, pen]
    exact taken

/-- The kinds that can change what the invariant speaks of. -/
abbrev viewKinds : List Kind :=
  gaitKinds ++ stockSizeKinds ++ [.halt, .free, .accept, .drop, .pen, .load]

theorem Act.walkView_eq {k : Kind} {s t : State} (a : Act k s t) (hk : k ∉ viewKinds) : walkView t = walkView s := by
  have sizes := a.stockSizes_eq (fun h => hk (List.mem_append_left _ (List.mem_append_right _ h)))
  have used := a.usage_eq (fun h => hk (by simp only [List.mem_cons, List.not_mem_nil, or_false] at h; rcases h with rfl | rfl | rfl <;> decide))
  simp only [walkView, sizes, used, Prod.mk.injEq, true_and]
  cases a with
  | engine | walkers | reset | halt | drop | pen | load | free | accept | unstock | stock => exact absurd (by decide) hk
  | _ => exact ⟨rfl, rfl, rfl⟩

theorem Work.walkersSound {K : List Kind} {s t : State} (w : Work K s t) (sound : s.walkersSound)
    (hK : ∀ k ∈ K, k ∉ viewKinds := by decide) : t.walkersSound :=
  walkersSound_congr (w.same walkView fun k mem _ _ act => act.walkView_eq (hK k mem)) sound

/-! ## The walkers' own steps -/

/-- From `s` to `t` walkers move, and none comes to NEXT. -/
def Strolls (s t : State) : Prop :=
  (∃ o n b os, t = { s with orderWalker := o, noteWalker := n, blankWalkers := b, out := s.out ++ os }) ∧
    ∀ w, (t.walker w).state = .next → t.walker w = s.walker w

theorem emit_nil (s : State) : emit [] s = s := by simp [emit]

theorem Strolls.refl (s : State) : Strolls s s :=
  ⟨⟨s.orderWalker, s.noteWalker, s.blankWalkers, [], by simp⟩, fun _ _ => rfl⟩

theorem Strolls.trans {s t u : State} (a : Strolls s t) (b : Strolls t u) : Strolls s u := by
  obtain ⟨⟨o, n, bs, os, rfl⟩, stay⟩ := a
  obtain ⟨⟨o', n', bs', os', rfl⟩, stay'⟩ := b
  refine ⟨⟨o', n', bs', os ++ os', by simp⟩, fun w next => ?_⟩
  have e := stay' w next
  exact e.trans (stay w (e ▸ next))

/-- One walker set to another state than NEXT, with reads issued. -/
theorem strolls_setWalker (w : WalkerId) (x : Walker) (s : State) (os : List Output) (other : x.state ≠ .next) :
    Strolls s (emit os (setWalker w x s)) := by
  refine ⟨by cases w <;> exact ⟨_, _, _, os, rfl⟩, fun v next => ?_⟩
  have same : (emit os (setWalker w x s)).walker v = (setWalker w x s).walker v := by cases v <;> rfl
  rw [same] at next ⊢
  by_cases e : v = w
  · subst e
    rw [setWalker_same] at next
    exact absurd next other
  · exact setWalker_other s w v x e

theorem strolls_takeLeave (w : WalkerId) (s : State) : Strolls s (takeLeave w s) := by
  unfold takeLeave
  split
  · split
    · exact Strolls.refl s
    · exact strolls_setWalker w _ s _ (by simp)
  · exact Strolls.refl s

theorem strolls_issueRevisit (w : WalkerId) (s : State) : Strolls s (issueRevisit w s) := by
  unfold issueRevisit
  split
  · exact Strolls.refl s
  · exact strolls_setWalker w _ s _ (by simp)

theorem strolls_set (w : WalkerId) (x : Walker) (s : State) (other : x.state ≠ .next) :
    Strolls s (setWalker w x s) := by
  have h := strolls_setWalker w x s [] other
  rwa [emit_nil] at h

theorem strolls_wakeWalker (w : WalkerId) (s : State) : Strolls s (wakeWalker w s) := by
  unfold wakeWalker
  split
  · exact strolls_issueRevisit w s
  · rename_i revisiting
    exact strolls_set w _ s (by simp [revisiting])
  all_goals exact Strolls.refl s

theorem strolls_foldl {f : WalkerId → State → State} (h : ∀ w s, Strolls s (f w s)) (ws : List WalkerId) (s : State) :
    Strolls s (ws.foldl (fun t w => f w t) s) := by
  induction ws generalizing s with
  | nil => exact Strolls.refl s
  | cons w ws ih => exact (h w s).trans (ih _)

theorem Strolls.walkersSound {s t : State} (h : Strolls s t) (walking : s.walking = true) (sound : s.walkersSound) :
    t.walkersSound := by
  obtain ⟨⟨o, n, b, os, rfl⟩, stay⟩ := h
  rw [walkersSound_iff] at sound ⊢
  obtain ⟨-, leave, empty, taken⟩ := sound
  refine ⟨fun still => absurd (walking.symm.trans still) (by decide), fun _ w a next successor => ?_, empty, taken⟩
  have e := stay w next
  exact (by cases w <;> rfl : hasLeave _ w = hasLeave s w).trans
    (leave walking w a (e ▸ next) (by rw [← e]; exact successor))

/-! ## Each walker moved once -/

/-- Every walker as `x` says, with outputs issued. -/
def moveWalkers (x : WalkerId → Walker) (os : List Output) (s : State) : State :=
  { s with
    orderWalker := x .order, noteWalker := x .note, blankWalkers := tabulate fun p => x (.blank p)
    out := s.out ++ os }

@[simp] theorem moveWalkers_walker (x : WalkerId → Walker) (os : List Output) (s : State) (w : WalkerId) :
    (moveWalkers x os s).walker w = x w := by
  cases w <;> simp [moveWalkers, State.walker]

theorem moveWalkers_same (s : State) : moveWalkers s.walker [] s = s := by
  have blank : (tabulate fun p : LaneId => s.blankWalkers[p]) = s.blankWalkers := Vector.ext fun i hi => by simp
  simp only [moveWalkers, State.walker, blank, List.append_nil]

theorem emit_setWalker_moveWalkers (w : WalkerId) (y : Walker) (x : WalkerId → Walker) (os os' : List Output) (s : State) :
    emit os' (setWalker w y (moveWalkers x os s)) = moveWalkers (Function.update x w y) (os ++ os') s := by
  cases w with
  | order => simp [emit, setWalker, moveWalkers]
  | note => simp [emit, setWalker, moveWalkers]
  | blank p =>
    have blank : (tabulate fun q => x (.blank q)).set p y = tabulate fun q => Function.update x (.blank p) y (.blank q) := by
      refine Vector.ext fun i hi => ?_
      rw [Vector.getElem_set, tabulate_getElem, tabulate_getElem, Function.update_apply]
      simp [Fin.ext_iff, eq_comm]
    simp [emit, setWalker, moveWalkers, blank]

/-- Each walker of a list moved once, where the move looks at nothing that the moves before it changed. -/
theorem foldl_moveWalkers {f : WalkerId → State → State} {y : WalkerId → Walker} {os : WalkerId → List Output} {s : State}
    (move : ∀ w x o, x w = s.walker w → f w (moveWalkers x o s) = emit (os w) (setWalker w (y w) (moveWalkers x o s)))
    (ws : List WalkerId) (x : WalkerId → Walker) (o : List Output) (nodup : ws.Nodup)
    (still : ∀ w ∈ ws, x w = s.walker w) :
    ws.foldl (fun t w => f w t) (moveWalkers x o s) =
      moveWalkers (fun w => if w ∈ ws then y w else x w) (o ++ ws.flatMap os) s := by
  induction ws generalizing x o with
  | nil => simp
  | cons w ws ih =>
    obtain ⟨fresh, nodup⟩ := List.nodup_cons.1 nodup
    rw [List.foldl_cons, move w x o (still w List.mem_cons_self), emit_setWalker_moveWalkers, ih _ _ nodup ?_]
    · congr 1
      · funext v
        by_cases e : v = w
        · subst e; simp [fresh]
        · simp [e]
      · simp
    · intro v mem
      have e : v ≠ w := fun e => fresh (e ▸ mem)
      rw [Function.update_of_ne e]
      exact still v (List.mem_cons_of_mem _ mem)

theorem mem_allWalkers (w : WalkerId) : w ∈ allWalkers := by
  cases w <;> simp [allWalkers]

theorem nodup_allWalkers : allWalkers.Nodup := by decide

/-- Every walker moved once. -/
theorem foldl_allWalkers {f : WalkerId → State → State} {y : WalkerId → Walker} {os : WalkerId → List Output} {s : State}
    (move : ∀ w x o, x w = s.walker w → f w (moveWalkers x o s) = emit (os w) (setWalker w (y w) (moveWalkers x o s))) :
    allWalkers.foldl (fun t w => f w t) s = moveWalkers y (allWalkers.flatMap os) s := by
  have h := foldl_moveWalkers move allWalkers s.walker [] nodup_allWalkers fun _ _ => rfl
  simpa [moveWalkers_same, mem_allWalkers] using h

/-! ## Leave at the end of an event -/

/-- A walker in NEXT has a successor to read and leave to read it (R23). -/
def getsLeave (s : State) (w : WalkerId) : Bool :=
  (s.walker w).state == .next && (s.walker w).successor.isSome && hasLeave s w

/-- A walker after the leave of an event. -/
def afterLeave (s : State) (w : WalkerId) : Walker :=
  if getsLeave s w then { s.walker w with state := .reading, readAt := some s.now } else s.walker w

/-- The reads that a walker's leave issues. -/
def leaveReads (s : State) (w : WalkerId) : List Output :=
  if getsLeave s w then readRequests ((s.walker w).successor.getD 0) (recordLength w) else []

theorem setWalker_self (w : WalkerId) (s : State) : setWalker w (s.walker w) s = s := by
  cases w <;> simp [setWalker, State.walker]

theorem takeLeave_eq (w : WalkerId) (s : State) :
    takeLeave w s = emit (leaveReads s w) (setWalker w (afterLeave s w) s) := by
  unfold takeLeave leaveReads afterLeave getsLeave
  cases successor : (s.walker w).successor with
  | none => simp [setWalker_self, emit_nil]
  | some a =>
    simp only [successor, Option.isSome_some, Bool.and_true, Option.getD_some]
    cases (s.walker w).state == .next && hasLeave s w
    · simp [setWalker_self, emit_nil]
    · simp [issueTake, issueRead, successor]

theorem hasLeave_moveWalkers (x : WalkerId → Walker) (os : List Output) (s : State) (w : WalkerId) :
    hasLeave (moveWalkers x os s) w = hasLeave s w := by cases w <;> rfl

/-- What leave does at the end of an event. -/
theorem giveLeave_eq (s : State) (walking : s.walking = true) :
    giveLeave s = moveWalkers (afterLeave s) (allWalkers.flatMap (leaveReads s)) s := by
  rw [giveLeave, if_pos walking]
  refine foldl_allWalkers fun w x o e => ?_
  have gets : getsLeave (moveWalkers x o s) w = getsLeave s w := by
    simp [getsLeave, hasLeave_moveWalkers, e]
  rw [takeLeave_eq]
  simp only [leaveReads, afterLeave, gets, moveWalkers_walker, e]
  rfl

theorem giveLeave_of_still {s : State} (still : s.walking = false) : giveLeave s = s := by
  simp [giveLeave, still]

theorem giveLeave_leaveTaken (s : State) : LeaveTaken (giveLeave s) := by
  intro walking w a next successor
  have before : s.walking = true := by
    by_contra still
    rw [giveLeave_of_still (by simpa using still)] at walking
    exact still walking
  rw [giveLeave_eq s before] at next successor ⊢
  rw [moveWalkers_walker, afterLeave] at next successor
  rw [hasLeave_moveWalkers]
  by_cases gets : getsLeave s w = true
  · simp [gets] at next
  · rw [if_neg gets] at next successor
    simpa [getsLeave, next, successor] using gets

end Sys2Proof.Proofs

/-! PROOFS. The walkers and DOZING after every step (R21, R23, R26, R160): what ends an event gives the leave and makes
the entry to DOZING; takes wake the engine, halts and stops put the walkers to rest. -/

namespace Sys2Proof.Proofs

open Sys2Proof Sys2Proof.Machine

-- In order: declarations that run `decide` side by side wait for each other, each on a thread of its own.
set_option Elab.async false

/-! ## Leave and the entry to DOZING -/

theorem giveLeave_walkersSound {s : State} (rest : RestOutside s) (empty : DozeEmpty s) (taken : DozeTaken s) :
    (giveLeave s).walkersSound := by
  by_cases walking : s.walking = true
  · have leave := giveLeave_leaveTaken s
    rw [walkersSound_iff]
    rw [giveLeave_eq s walking] at leave ⊢
    exact ⟨fun still => absurd (walking.symm.trans still) (by decide), leave, empty, taken⟩
  · rw [Bool.not_eq_true] at walking
    rw [giveLeave_of_still walking]
    exact walkersSound_of_rest walking (rest walking)

@[simp] theorem restartHeld_walker (s : State) (w : WalkerId) :
    (restartHeld s).walker w =
      if (s.walker w).state = .held then { s.walker w with deadline := some (s.now + revisitInterval s) } else s.walker w := by
  cases w with
  | order => rfl
  | note => rfl
  | blank p => exact Vector.getElem_map ..

theorem LeaveTaken.restartHeld {s : State} (leave : LeaveTaken s) : LeaveTaken (restartHeld s) := by
  intro walking w a next successor
  rw [restartHeld_walker] at next successor
  have other : (s.walker w).state ≠ .held := by
    intro held
    simp [held] at next
  rw [if_neg other] at next successor
  exact (by cases w <;> rfl : hasLeave (Machine.restartHeld s) w = hasLeave s w).trans (leave walking w a next successor)

theorem dozeReady_iff (s : State) : dozeReady s = true ↔ ¬DozeTaken s := by
  simp [dozeReady, DozeTaken, and_assoc]

theorem enterDoze_walkersSound {s : State} (rest : RestOutside s) (leave : LeaveTaken s) (empty : DozeEmpty s) :
    (enterDoze s).walkersSound := by
  rw [walkersSound_iff]
  unfold enterDoze
  split
  · rename_i ready
    rw [dozeReady_iff, DozeTaken, not_not] at ready
    obtain ⟨running, -, -, none, pen, -⟩ := ready
    have walking : s.walking = true := by simp [State.walking, running]
    refine ⟨fun still => absurd still (by simp [Machine.restartHeld, mapWalkers, State.walking]),
      LeaveTaken.restartHeld fun _ => leave walking, fun _ => ⟨none, pen⟩, fun h => ?_⟩
    exact absurd h.1 (by simp [Machine.restartHeld, mapWalkers])
  · rename_i unready
    rw [dozeReady_iff, not_not] at unready
    exact ⟨rest, leave, empty, unready⟩

/-! ## STOPPING and its end -/

/-- Past a STOP, with the walkers IDLE. -/
def StoppedAtRest (s : State) : Prop := StopEntered s ∧ s.walkersAtRest

theorem StoppedAtRest.of_frame {s t : State} (frame : UnitFrame s t) (h : StoppedAtRest s) : StoppedAtRest t := by
  refine ⟨stopEntered_of_frame frame h.1, ?_⟩
  rcases frame.run with same | ⟨-, rest⟩
  · simp only [State.run, Prod.mk.injEq] at same
    obtain ⟨-, -, -, -, -, order, note, blank⟩ := same
    exact ⟨order.trans h.2.1, note.trans h.2.2.1, blank.trans h.2.2.2⟩
  · exact rest

theorem StoppedAtRest.not_walking {s : State} (h : StoppedAtRest s) : s.walking = false := by
  rcases h.1 with e | e | e <;> simp [State.walking, e]

theorem StoppedAtRest.walkersSound {s : State} (h : StoppedAtRest s) : s.walkersSound :=
  walkersSound_of_rest h.not_walking h.2

theorem enterStopped_atRest {s : State} (h : StoppedAtRest s) : StoppedAtRest (enterStopped s) := by
  refine ⟨enterStopped_stopEntered s h.1, ?_⟩
  unfold enterStopped
  split
  · have stopped : StoppedAtRest { s with control := { s.control with engine := .stopped } } := ⟨.inr (.inl rfl), h.2⟩
    exact (stopped.of_frame (raise_frame _ _)).2
  · exact h.2

theorem concludeStop_atRest {s : State} (h : StoppedAtRest s) : StoppedAtRest (concludeStop s) := by
  unfold concludeStop
  split
  · refine inOrder_keeps (fun f mem t kept => ?_) h
    rcases List.mem_append.1 mem with unused | last
    · obtain ⟨p, -, rfl⟩ := List.mem_map.1 unused
      exact kept.of_frame (linkUnusedOn_frame p t)
    · obtain rfl := List.mem_singleton.1 last
      exact enterStopped_atRest kept
  · exact h

theorem concludeStop_of_not_stopping {s : State} (h : s.control.engine ≠ .stopping) : concludeStop s = s := if_neg h

theorem endEvent_walkersSound {s : State} (rest : RestOutside s) (empty : DozeEmpty s) : (endEvent s).walkersSound := by
  have both : RestOutside (concludeStop s) ∧ DozeEmpty (concludeStop s) := by
    by_cases stopping : s.control.engine = .stopping
    · have ended := concludeStop_atRest ⟨.inl stopping, rest (by simp [State.walking, stopping])⟩
      refine ⟨fun _ => ended.2, fun dozing => absurd ended.not_walking (by simp [State.walking, dozing])⟩
    · rw [concludeStop_of_not_stopping stopping]
      exact ⟨rest, empty⟩
  obtain ⟨rest, empty⟩ := both
  unfold endEvent
  generalize concludeStop s = t at rest empty
  by_cases walking : t.walking = true
  · refine enterDoze_walkersSound (fun still => ?_) (giveLeave_leaveTaken t) ?_
    · rw [giveLeave_eq t walking] at still
      exact absurd (walking.symm.trans still) (by decide)
    · rw [giveLeave_eq t walking]
      exact empty
  · rw [Bool.not_eq_true] at walking
    rw [giveLeave_of_still walking]
    exact enterDoze_walkersSound rest (fun h => absurd (h.symm.trans walking) (by decide)) empty

/-! ## Takes -/

/-- RUNNING with the idle mark clear. -/
def Awake (s : State) : Prop := s.control.engine = .running ∧ s.control.idleElapsed = false

theorem Awake.walking {s : State} (h : Awake s) : s.walking = true := by simp [State.walking, h.1]

theorem Awake.restOutside {s : State} (h : Awake s) : RestOutside s :=
  fun still => absurd (h.walking.symm.trans still) (by decide)

theorem Awake.dozeEmpty {s : State} (h : Awake s) : DozeEmpty s :=
  fun dozing => absurd (h.1.symm.trans dozing) (by decide)

theorem Awake.dozeTaken {s : State} (h : Awake s) : DozeTaken s :=
  fun ready => absurd (h.2.symm.trans ready.2.1) (by decide)

theorem Awake.giveLeave_walkersSound {s : State} (h : Awake s) : (giveLeave s).walkersSound :=
  Proofs.giveLeave_walkersSound h.restOutside h.dozeEmpty h.dozeTaken

theorem recordTaken_awake {s : State} (walking : s.walking = true) : Awake (recordTaken s) := by
  unfold recordTaken
  split
  · exact ⟨rfl, rfl⟩
  · rename_i awake
    exact ⟨((walking_iff s).1 walking).resolve_right awake, rfl⟩

/-- The engine of a unit's work stays awake or is HALTED at rest. -/
def AwakeOrHalted (s : State) : Prop := Awake s ∨ HaltedAtRest s

theorem Awake.work {K : List Kind} {s t : State} (w : Work K s t) (h : Awake s)
    (hK : ∀ k ∈ K, k ∉ gaitKinds := by decide) : AwakeOrHalted t := by
  refine w.keeps (fun k mem u v act => ?_) (.inl h)
  rintro (awake | halted)
  · rcases act.gait_eq (hK k mem) with same | halted
    · exact .inl ⟨(engine_eq_of_gait same).trans awake.1, (idleElapsed_eq_of_gait same).trans awake.2⟩
    · exact .inr halted
  · rcases act.gait_eq (hK k mem) with same | halted
    · refine .inr ⟨(engine_eq_of_gait same).trans halted.1, (walkersAtRest_iff v).2 fun w => ?_⟩
      exact (walker_eq_of_gait same w).trans ((walkersAtRest_iff u).1 halted.2 w)
    · exact .inr halted

theorem Awake.setWalker {s : State} (h : Awake s) (w : WalkerId) (x : Walker) : Awake (setWalker w x s) := by
  rwa [Awake, setWalker_control]

theorem walkOn_walkersSound {s : State} (h : Awake s) (w : WalkerId) (a : Nat) (link : Link) :
    (walkOn w a link s).walkersSound := by
  cases link with
  | hold => exact (h.setWalker w _).giveLeave_walkersSound
  | next b => exact (h.setWalker w _).giveLeave_walkersSound
  | malformed => exact halt_walkersSound _ h.restOutside

theorem takeRecord_walkersSound {K : List Kind} {unit : Nat → List Byte → State → State}
    (unit_work : ∀ a image s, Work K s (unit a image s)) (hK : ∀ k ∈ K, k ∉ gaitKinds) (w : WalkerId) (r : ReadResult)
    {s : State} (sound : s.walkersSound) : (takeRecord w unit r s).walkersSound := by
  have rest := ((walkersSound_iff s).1 sound).1
  have taken (a : Nat) (image : List Byte) (link : Link) (walking : s.walking = true) :
      (inOrder [recordTaken, unit a image, walkOn w a link] s).walkersSound := by
    have live : s.halted = false := by
      rw [← Bool.not_eq_true, halted_iff]
      intro halted
      simp [State.walking, halted] at walking
    rw [inOrder_step _ _ _ live]
    rcases inOrder_last [unit a image] (walkOn w a link) (recordTaken s) with ⟨e, halted⟩ | ⟨e, going⟩
    all_goals
      rw [List.singleton_append] at e
      rw [e]
      rcases (recordTaken_awake walking).work (inOrder_one_work (unit_work a image) _) hK with awake | ended
    · exact absurd (awake.1.symm.trans ((halted_iff _).1 halted)) (by decide)
    · exact ended.walkersSound
    · exact walkOn_walkersSound awake w a link
    · exact absurd ((halted_iff _).2 ended.1) (by simp [going])
  unfold takeRecord
  split
  · rename_i reading
    simp only [Bool.and_eq_true] at reading
    split
    · exact halt_walkersSound _ rest
    · exact sound
    · split
      · exact halt_walkersSound _ rest
      · exact taken _ _ _ reading.1
  · exact sound

end Sys2Proof.Proofs

/-! PROOFS. The walkers and DOZING, command by command (R21, R23, R26, R160). -/

namespace Sys2Proof.Proofs

open Sys2Proof Sys2Proof.Machine

-- In order: declarations that run `decide` side by side wait for each other, each on a thread of its own.
set_option Elab.async false

/-! ## START -/

theorem rest_of_engine {s : State} (sound : s.walkersSound) {e : Engine} (at_e : s.control.engine = e)
    (still : e ≠ .running ∧ e ≠ .dozing) : s.walkersAtRest := by
  refine ((walkersSound_iff s).1 sound).1 ?_
  rw [← Bool.not_eq_true, walking_iff, at_e]
  rintro (running | dozing)
  · exact still.1 running
  · exact still.2 dozing

/-- In STARTING and in STOPPED the walkers rest, whatever is raised there. -/
theorem raise_walkersSound {s : State} (b : EventBit) (still : s.walking = false) (rest : s.walkersAtRest) :
    (raise b s).walkersSound := by
  have view : walkView (raise b s) = walkView s :=
    (raise_work b s).same walkView fun k mem _ _ act => act.walkView_eq ((by decide : ∀ k ∈ [Kind.event], k ∉ viewKinds) k mem)
  exact walkersSound_congr view (walkersSound_of_rest still rest)

theorem rejectStart_walkersSound (cause : Cause) (latch : Option Bool) {s : State} (rest : s.walkersAtRest) :
    (rejectStart cause latch s).walkersSound := raise_walkersSound _ rfl rest

/-- The walkers at their chain starts leave the engine RUNNING or HALTED at rest. -/
theorem startWalkers_running (img : AnchorImage) {s : State} (running : s.control.engine = .running) :
    (startWalkers img s).control.engine = .running ∨ HaltedAtRest (startWalkers img s) := by
  have one (w : WalkerId) (word : Nat) (t : State) (live : t.halted = false)
      (h : t.control.engine = .running ∨ HaltedAtRest t) :
      (startWalker w word t).control.engine = .running ∨ HaltedAtRest (startWalker w word t) := by
    have run : t.control.engine = .running := h.resolve_right fun ended => by simp [(halted_iff t).2 ended.1] at live
    unfold startWalker
    split
    · exact .inl (by rw [setWalker_control]; exact run)
    · exact .inl (by rw [setWalker_control]; exact run)
    · rcases halt_cases .chainMalformed t with ⟨halted, _⟩ | ⟨_, ev, os, _, e⟩
      · exact absurd (halted.symm.trans live) (by decide)
      · rw [e]
        exact .inr ⟨rfl, rfl, rfl, rfl⟩
  unfold startWalkers
  refine inOrder_keeps_live (P := fun t => t.control.engine = .running ∨ HaltedAtRest t) (fun f mem t live h => ?_)
    (.inl running)
  simp only [List.cons_append, List.nil_append, List.mem_cons, List.mem_map] at mem
  rcases mem with rfl | rfl | ⟨p, -, rfl⟩
  · exact one _ _ t live h
  · exact one _ _ t live h
  · exact one _ _ t live h

theorem succeedStart_walkersSound (img : AnchorImage) (s : State) : (succeedStart img s).walkersSound := by
  rw [succeedStart_eq, inOrder_step _ _ _ rfl]
  have started := startWalkers_running img (s := startLoaded img s) rfl
  generalize startWalkers img (startLoaded img s) = u at started ⊢
  rcases started with running | ended
  · have live (t : State) (run : t.control.engine = .running) : t.halted = false := by simp [State.halted, run]
    rw [inOrder_step _ _ _ (live u running), inOrder_step _ _ _ (live (startIdle u) running), inOrder_nil]
    exact Awake.giveLeave_walkersSound ⟨running, rfl⟩
  · rw [inOrder_halted _ _ ((halted_iff u).2 ended.1)]
    exact ended.walkersSound

theorem finishStart_walkersSound (r : ReadResult) {s : State} (rest : s.walkersAtRest) : (finishStart r s).walkersSound := by
  unfold finishStart
  split
  · exact rejectStart_walkersSound _ _ rest
  · dsimp only
    split
    · exact rejectStart_walkersSound _ _ rest
    · exact rejectStart_walkersSound _ _ rest
    · exact succeedStart_walkersSound _ s

/-! ## RELOAD and the entry to DOZING -/

/-- What the first three parts of the invariant speak of. -/
def strideView (s : State) :=
  (s.control.engine, s.orderWalker, s.noteWalker, s.blankWalkers, usage s, stockSizes s, s.pen)

theorem walker_eq_of_stride {s t : State} (h : strideView t = strideView s) (w : WalkerId) : t.walker w = s.walker w := by
  simp only [strideView, Prod.mk.injEq] at h
  obtain ⟨-, order, note, blank, -⟩ := h
  cases w with
  | order => exact order
  | note => exact note
  | blank p => exact congrArg (·[p]) blank

theorem enterDoze_of_stride {s t : State} (h : strideView t = strideView s) (sound : s.walkersSound) :
    (enterDoze t).walkersSound := by
  obtain ⟨rest, leave, empty, -⟩ := (walkersSound_iff s).1 sound
  have walkers := walker_eq_of_stride h
  simp only [strideView, Prod.mk.injEq] at h
  obtain ⟨engine, -, -, -, used, sizes, pen⟩ := h
  refine enterDoze_walkersSound (fun still => ?_) (fun walking w a => ?_) fun dozing => ?_
  · rw [walking_congr engine] at still
    exact (walkersAtRest_iff t).2 fun w => (walkers w).trans ((walkersAtRest_iff s).1 (rest still) w)
  · rw [walking_congr engine] at walking
    rw [walkers, hasLeave_congr used sizes]
    exact leave walking w a
  · rw [contextsInUse_congr used, pen]
    exact empty (engine ▸ dozing)

theorem raise_stride (b : EventBit) (s : State) : strideView (raise b s) = strideView s := by
  refine (raise_work b s).same strideView fun k mem _ _ act => ?_
  obtain rfl := List.mem_singleton.1 mem
  cases act
  rfl

theorem idleAfterReload_stride (s : State) : strideView (idleAfterReload s) = strideView s := by
  unfold idleAfterReload
  split <;> rfl

theorem loadTables_stride (img : AnchorImage) (s : State) : strideView (loadTables img s) = strideView s := by
  have sizes : stockSizes (loadTables img s) = stockSizes s := stockSizes_of_blank fun p => by simp [loadTables]
  simp only [strideView, sizes]
  rfl

theorem acceptReload_stride (img : AnchorImage) (s : State) : strideView (acceptReload img s) = strideView s := by
  unfold acceptReload
  dsimp only
  rw [raise_stride, idleAfterReload_stride, ← loadTables_stride img s]
  split <;> rfl

theorem finishReload_walkersSound (r : ReadResult) {s : State} (sound : s.walkersSound) : (finishReload r s).walkersSound := by
  unfold finishReload
  refine enterDoze_of_stride ?_ sound
  split
  · exact (raise_stride _ _).trans rfl
  · dsimp only
    split
    · exact (raise_stride _ _).trans rfl
    · exact acceptReload_stride _ s

/-! ## WAKE and STOP -/

theorem leaveDoze_walkersSound {s : State} (leave : LeaveTaken s) (walking : s.walking = true) :
    (leaveDoze s).walkersSound := by
  have awake : Awake (leaveDoze s) := ⟨rfl, rfl⟩
  rw [walkersSound_iff]
  refine ⟨awake.restOutside, ?_, awake.dozeEmpty, awake.dozeTaken⟩
  have running : LeaveTaken { s with control := { s.control with engine := .running } } := fun _ => leave walking
  exact running.restartHeld

theorem stop_walkersSound (s : State) :
    (inOrder [abortContexts, emptyPen, finishAllDue, concludeStop] (enterStopping s)).walkersSound := by
  refine StoppedAtRest.walkersSound (inOrder_keeps (fun f mem t kept => ?_) ⟨.inl rfl, rfl, rfl, rfl⟩)
  simp only [List.mem_cons, List.not_mem_nil, or_false] at mem
  rcases mem with rfl | rfl | rfl | rfl
  · exact kept.of_frame (abortContexts_frame t)
  · exact kept.of_frame (emptyPen_frame t)
  · exact kept.of_frame (finishAllDue_frame t)
  · exact concludeStop_atRest kept

/-! ## Events of the units -/

/-- Work that leaves the engine and the walkers alone, and then the end of the event. -/
theorem inOrder_endEvent_walkersSound {K : List Kind} {fs : List (State → State)} {s : State}
    (work : ∀ f ∈ fs, ∀ t, Work K t (f t)) (rest : RestOutside s) (empty : DozeEmpty s)
    (hK : ∀ k ∈ K, k ∉ gaitKinds ++ [.accept, .pen] := by decide) :
    (inOrder (fs ++ [endEvent]) s).walkersSound := by
  have rest' : RestOutside (inOrder fs s) := (inOrder_work work s).keeps
    (fun k mem _ _ act => act.restOutside fun h => hK k mem (List.mem_append_left _ h)) rest
  have empty' : DozeEmpty (inOrder fs s) := (inOrder_work work s).keeps
    (fun k mem _ _ act => act.dozeEmpty (hK k mem)) empty
  rcases inOrder_last fs endEvent s with ⟨e, halted⟩ | ⟨e, -⟩
  · rw [e]
    have still : (inOrder fs s).walking = false := by simp [State.walking, (halted_iff _).1 halted]
    exact walkersSound_of_rest still (rest' still)
  · rw [e]
    exact endEvent_walkersSound rest' empty'

theorem expireOrphans_enterDoze_walkersSound {s : State} (sound : s.walkersSound) :
    (enterDoze (expireOrphans s)).walkersSound := by
  obtain ⟨rest, leave, empty, -⟩ := (walkersSound_iff s).1 sound
  have work := expireOrphans_work s
  have away : ∀ k ∈ dropKinds, k ∉ gaitKinds ++ [.accept, .pen] := by decide
  have used := work.usage_eq
  have sizes := work.stockSizes_eq
  have gaits : gait (expireOrphans s) = gait s ∨ HaltedAtRest (expireOrphans s) := by
    refine work.keeps (P := fun t => gait t = gait s ∨ HaltedAtRest t) (fun k mem u v act h => ?_) (.inl rfl)
    rcases act.gait_eq (fun h => away k mem (List.mem_append_left _ h)) with same | halted
    · rcases h with h | h
      · exact .inl (same.trans h)
      · refine .inr ⟨(engine_eq_of_gait same).trans h.1, (walkersAtRest_iff v).2 fun w => ?_⟩
        exact (walker_eq_of_gait same w).trans ((walkersAtRest_iff u).1 h.2 w)
    · exact .inr halted
  refine enterDoze_walkersSound
    (work.keeps (fun k mem _ _ act => act.restOutside fun h => away k mem (List.mem_append_left _ h)) rest) ?_
    (work.keeps (fun k mem _ _ act => act.dozeEmpty (away k mem)) empty)
  rcases gaits with same | ended
  · intro walking w a
    rw [walking_congr (engine_eq_of_gait same)] at walking
    rw [walker_eq_of_gait same, hasLeave_congr used sizes]
    exact leave walking w a
  · exact fun walking => absurd (walking.symm.trans ended.not_walking) (by decide)

theorem setWalker_walkersSound_giveLeave {s : State} (sound : s.walkersSound) (walking : s.walking = true) (w : WalkerId)
    (x : Walker) : (giveLeave (setWalker w x s)).walkersSound := by
  obtain ⟨-, -, empty, taken⟩ := (walkersSound_iff s).1 sound
  have still_walking : (setWalker w x s).walking = true := by
    rw [walking_congr (congrArg _ (setWalker_control s w x))]
    exact walking
  refine giveLeave_walkersSound (fun still => absurd (still_walking.symm.trans still) (by decide)) ?_ ?_
  · cases w <;> exact empty
  · cases w <;> exact taken

theorem actOnRevisit_walkersSound {s : State} (sound : s.walkersSound) (walking : s.walking = true) (w : WalkerId)
    (link : Link) : (actOnRevisit w link s).walkersSound := by
  cases link with
  | hold =>
    unfold actOnRevisit
    dsimp only
    split
    · exact (strolls_issueRevisit w s).walkersSound walking sound
    · exact (strolls_set w _ s (by simp [heldAt])).walkersSound walking sound
  | next a => exact setWalker_walkersSound_giveLeave sound walking w _
  | malformed => exact halt_walkersSound _ ((walkersSound_iff s).1 sound).1

theorem reachTime_walkersSound {s : State} (u : Nat) (sound : s.walkersSound) : (reachTime u s).walkersSound := sound

/-! ## Every command -/

theorem exec_walkersSound {c : Instr} {s t : State} (h : exec c s = .next t) (sound : s.walkersSound) :
    t.walkersSound := by
  have work := exec_work h
  obtain ⟨rest, leave, empty, taken⟩ := (walkersSound_iff s).1 sound
  cases c
  case start =>
    obtain rfl := eq_of_next h
    split
    · rename_i stopped
      have resting := rest_of_engine sound stopped (by decide)
      split
      · exact rejectStart_walkersSound _ _ resting
      · exact walkersSound_of_rest rfl resting
    · exact sound
  case stop =>
    obtain rfl := eq_of_next h
    split
    · exact stop_walkersSound s
    · exact sound
  case reload =>
    obtain rfl := eq_of_next h
    split
    · rename_i idle
      simp only [Bool.and_eq_true] at idle
      refine (walkersSound_iff _).2 ⟨rest, leave, empty, fun ready => ?_⟩
      obtain ⟨-, -, -, -, -, unread⟩ := ready
      exact absurd unread (by simp [issueRead])
    · exact sound
  case wake =>
    obtain rfl := eq_of_next h
    split
    · rename_i walking
      refine (strolls_foldl strolls_wakeWalker _ _).walkersSound ?_ ?_
      · split
        · rfl
        · exact walking
      · split
        · exact leaveDoze_walkersSound leave walking
        · exact sound
    · exact sound
  case reset =>
    obtain rfl := eq_of_next h
    exact walkersSound_of_rest rfl ⟨rfl, rfl, rfl⟩
  case coldReset =>
    obtain rfl := eq_of_next h
    exact walkersSound_of_rest rfl ⟨rfl, rfl, rfl⟩
  case startReadCompletion r =>
    obtain rfl := eq_of_next_if h
    split
    · rename_i starting
      exact finishStart_walkersSound r (rest_of_engine sound starting (by decide))
    · exact sound
  case reloadReadCompletion r =>
    obtain rfl := eq_of_next_if h
    split
    · exact finishReload_walkersSound r sound
    · exact sound
  case leaveToTake w =>
    obtain rfl := eq_of_next h
    split
    · exact (strolls_takeLeave w s).walkersSound ‹_› sound
    · exact sound
  case orderTake r =>
    obtain rfl := eq_of_next_if h
    exact takeRecord_walkersSound intakeUnit_work (by decide) .order r sound
  case noteTake r =>
    obtain rfl := eq_of_next_if h
    exact takeRecord_walkersSound noteUnit_work (by decide) .note r sound
  case blankTake p r =>
    obtain rfl := eq_of_next_if h
    exact takeRecord_walkersSound (blankUnit_work p) (by decide) (.blank p) r sound
  case revisitDeadline w =>
    obtain rfl := eq_of_next h
    split
    · rename_i held
      simp only [Bool.and_eq_true] at held
      split
      · exact sound
      · exact (strolls_issueRevisit w _).walkersSound held.1 (reachTime_walkersSound _ sound)
    · exact sound
  case revisitCompletion w r =>
    obtain rfl := eq_of_next_if h
    split
    · rename_i revisiting
      simp only [Bool.and_eq_true] at revisiting
      split
      · exact halt_walkersSound _ rest
      · exact actOnRevisit_walkersSound sound revisiting.1 w _
    · exact sound
  case readCompletionTimeout read =>
    obtain rfl := eq_of_next h
    split
    · split
      · exact finishStart_walkersSound _ (rest_of_engine sound ‹_› (by decide))
      · exact sound
    · split
      · exact finishReload_walkersSound _ (reachTime_walkersSound _ sound)
      · exact sound
    · split
      · exact halt_walkersSound _ rest
      · exact sound
    · split
      · exact walkersSound_congr (s := s) rfl sound
      · exact sound
  case orphanExpiry i =>
    obtain rfl := eq_of_next h
    split
    · exact expireOrphans_enterDoze_walkersSound (reachTime_walkersSound _ sound)
    · exact sound
  case solveCompletion =>
    obtain rfl := eq_of_next h
    split
    · rename_i v _ _
      refine inOrder_endEvent_walkersSound (K := steerKinds ++ finishKinds ++ arbitrateKinds)
        (fs := [actOnSolve v, finishIfDue v.ctx, beginNext, arbitrate]) (fun f mem t => ?_) rest empty
      simp only [List.mem_cons, List.not_mem_nil, or_false] at mem
      rcases mem with rfl | rfl | rfl | rfl
      · exact (actOnSolve_work _ t).mono
      · exact (finishIfDue_work _ t).mono
      · exact (beginNext_work t).mono
      · exact (arbitrate_work t).mono
    · exact sound
  case combineCompletion reads fault =>
    change execCombineCompletion reads fault s = .next t at h
    unfold execCombineCompletion at h
    split at h
    · rename_i op _ _
      obtain rfl := eq_of_next_if h
      refine inOrder_endEvent_walkersSound (K := deliverKinds ++ finishKinds ++ arbitrateKinds ++ [.rejoin])
        (fs := [actOnCombine op reads fault, finishIfDue op.ctx, retryWaiting, reevaluate, endOfTurn op.ctx, arbitrate])
        (fun f mem t => ?_) rest empty
      simp only [List.mem_cons, List.not_mem_nil, or_false] at mem
      rcases mem with rfl | rfl | rfl | rfl | rfl | rfl
      · exact (actOnCombine_work _ _ _ t).mono
      · exact (finishIfDue_work _ t).mono
      · exact (retryWaiting_work t).mono
      · exact (reevaluate_work t).mono
      · exact (endOfTurn_work _ t).mono
      · exact (arbitrate_work t).mono
    · obtain rfl := eq_of_next h
      exact sound
  case drainFinish c =>
    obtain rfl := eq_of_next h
    split
    · refine inOrder_endEvent_walkersSound (K := finishKinds ++ arbitrateKinds) (fs := [finishContext c, arbitrate])
        (fun f mem t => ?_) rest empty
      simp only [List.mem_cons, List.not_mem_nil, or_false] at mem
      rcases mem with rfl | rfl
      · exact (finishContext_work c t).mono
      · exact (arbitrate_work t).mono
    · exact sound
  case idleDeadlineExpiry =>
    obtain rfl := eq_of_next h
    split
    · exact enterDoze_of_stride (s := s) rfl sound
    · exact sound
  case dozeEntry =>
    obtain rfl := eq_of_next h
    exact enterDoze_of_stride rfl sound
  all_goals exact work.walkersSound sound (by dsimp only [commandKinds]; decide)

theorem walkersSound_kept {s t : State} (sound : s.walkersSound) (h : step s = .next t) : t.walkersSound :=
  step_keeps (P := State.walkersSound) (fun _ _ _ e sound => exec_walkersSound e sound) (fun _ _ sound => sound)
    (fun _ sound => sound) sound h

end Sys2Proof.Proofs

/-! PROOFS. The pen and the stocks after every step (R57, R58, R140). A walker reads a blank only while its stock has
room, so that what the take adds finds it; a full pen gives up a note first. -/

namespace Sys2Proof.Proofs

open Sys2Proof Sys2Proof.Machine

-- In order: declarations that run `decide` side by side wait for each other, each on a thread of its own.
set_option Elab.async false

/-! ## The bounds, with one lane's room used up -/

/-- The pen and the stocks in their bounds; on the exempt lane a walker may still stand where it has read. -/
def RoomKept (exempt : Option LaneId) (s : State) : Prop :=
  s.pen.length ≤ 32 ∧ ∀ p : LaneId, s.lanes[p].stock.length ≤ 2 ∧
    (some p ≠ exempt → (s.blankWalkers[p]).state = .reading → s.lanes[p].stock.length < 2)

theorem storesSound_iff (s : State) : s.storesSound ↔ RoomKept none s := by simp [State.storesSound, RoomKept]

theorem RoomKept.of_none {s : State} (h : RoomKept none s) (exempt : Option LaneId) : RoomKept exempt s :=
  ⟨h.1, fun p => ⟨(h.2 p).1, fun _ => (h.2 p).2 (by simp)⟩⟩

/-- Where the walkers rest no walker has read. -/
theorem RoomKept.of_rest {exempt : Option LaneId} {s : State} (h : RoomKept exempt s) (rest : s.walkersAtRest) :
    RoomKept none s :=
  ⟨h.1, fun p => ⟨(h.2 p).1, fun _ reading => absurd reading (by simp [rest.2.2, Walker.rest])⟩⟩

theorem roomKept_congr {exempt : Option LaneId} {s t : State} (pen : t.pen.length ≤ s.pen.length)
    (walkers : t.blankWalkers = s.blankWalkers)
    (stocks : ∀ p : LaneId, t.lanes[p].stock.length ≤ s.lanes[p].stock.length) (h : RoomKept exempt s) :
    RoomKept exempt t := by
  refine ⟨pen.trans h.1, fun p => ⟨(stocks p).trans (h.2 p).1, fun other reading => ?_⟩⟩
  rw [walkers] at reading
  exact (stocks p).trans_lt ((h.2 p).2 other reading)

theorem stock_length_of_blank {s : State} {l : Lane} {p : LaneId}
    (same : l.stock.map StockEntry.blank = s.lanes[p].stock.map StockEntry.blank) :
    l.stock.length ≤ s.lanes[p].stock.length := by
  simpa using (congrArg List.length same).le

theorem Act.roomKept {exempt : Option LaneId} {k : Kind} {s t : State} (a : Act k s t) (hk : k ∉ [Kind.pen, .stock])
    (h : RoomKept exempt s) : RoomKept exempt t := by
  cases a with
  | halt _ c =>
    rcases halt_cases c s with ⟨_, e⟩ | ⟨_, ev, os, _, e⟩ <;> rw [e]
    · exact h
    · exact ⟨h.1, fun p => ⟨(h.2 p).1, fun _ reading => absurd reading (by simp [Walker.rest])⟩⟩
  | walkers _ o n b room =>
    refine ⟨h.1, fun p => ⟨(h.2 p).1, fun other reading => ?_⟩⟩
    rcases room p reading with before | fits
    · exact (h.2 p).2 other before
    · exact fits
  | marks _ ls same => exact roomKept_congr (s := s) le_rfl rfl (fun p => stock_length_of_blank (same p).1) h
  | tails _ ls f same => exact roomKept_congr (s := s) le_rfl rfl (fun p => by rw [(same p).1]) h
  | load _ img => exact roomKept_congr (s := s) le_rfl rfl (fun p => by simp [loadTables]) h
  | unstock _ p k =>
    refine roomKept_congr (s := s) le_rfl rfl (fun q => ?_) h
    by_cases e : q = p
    · subst e
      simp [modifyStock, List.length_erase_le]
    · rw [modifyStock, setLane_other s p q _ e]
  | drop _ l sub => exact roomKept_congr sub.length_le rfl (fun _ => le_rfl) h
  | reset =>
    refine ⟨Nat.zero_le _, fun p => ⟨?_, fun _ reading => absurd reading ?_⟩⟩
    · simp [resetBlocks, State.reset, Lane.initial]
    · simp [resetBlocks, State.reset, Walker.rest]
  | pen | stock => exact absurd (by decide) hk
  | _ => exact h

theorem Work.roomKept {exempt : Option LaneId} {K : List Kind} {s t : State} (w : Work K s t) (h : RoomKept exempt s)
    (hK : ∀ k ∈ K, k ∉ [Kind.pen, .stock] := by decide) : RoomKept exempt t :=
  w.keeps (fun k mem _ _ act => act.roomKept (hK k mem)) h

/-! ## A note's entry into the pen (R57, R58) -/

theorem Act.pen_eq {k : Kind} {s t : State} (a : Act k s t) (hk : k ∉ [Kind.pen, .drop, .reset]) : t.pen = s.pen := by
  cases a with
  | halt _ c => rcases halt_cases c s with ⟨_, e⟩ | ⟨_, ev, os, _, e⟩ <;> rw [e]
  | pen | drop | reset => exact absurd (by decide) hk
  | _ => rfl

theorem Work.pen_eq {K : List Kind} {s t : State} (w : Work K s t)
    (hK : ∀ k ∈ K, k ∉ [Kind.pen, .drop, .reset] := by decide) : t.pen = s.pen :=
  w.same State.pen fun k mem _ _ act => act.pen_eq (hK k mem)

theorem makeRoom_pen (s : State) (h : s.pen.length ≤ 32) : (makeRoom s).pen.length ≤ 31 := by
  unfold makeRoom
  split
  · split
    · simp [*]
    · rename_i e es pen
      rw [(writeNoteOutcome_work e.addr .droppedOrphan { s with pen := es }).pen_eq]
      rw [pen, List.length_cons] at h
      exact Nat.le_of_succ_le_succ h
  · rename_i room
    exact Nat.le_of_lt_succ (Nat.lt_of_not_le room)

theorem enterPen_roomKept (addr : Nat) (n : Note) {s : State} (h : RoomKept none s) : RoomKept none (enterPen addr n s) := by
  have pens (t : State) (room : t.pen.length ≤ 31) (h : RoomKept none t) (e : PenEntry) :
      RoomKept none { t with pen := t.pen ++ [e] } := by
    refine ⟨?_, h.2⟩
    rw [List.length_append]
    exact Nat.add_le_add_right room 1
  unfold enterPen
  rw [inOrder_cons]
  split
  · rw [inOrder_halted _ _ ‹_›]
    exact h
  · have roomy := (makeRoom_work s).roomKept h
    rw [inOrder_cons]
    refine (inOrder_one_work (writeNoteOutcome_work addr .pending) _).roomKept ?_
    split
    · exact roomy
    · exact pens _ (makeRoom_pen s h.1) roomy _

theorem noteUnit_roomKept (addr : Nat) (image : List Byte) {s : State} (h : RoomKept none s) :
    RoomKept none (noteUnit addr image s) := by
  unfold noteUnit
  split
  · exact (Work.act (K := [.halt]) (.halt s _)).roomKept h
  · unfold dispatchNote
    split
    · exact (writeNoteOutcome_work _ _ s).roomKept h
    · split
      · exact enterPen_roomKept _ _ h
      · refine (inOrder_cons_work (K := applyKinds ++ finishKinds ++ arbitrateKinds) (fun t => (applyNote_work _ _ _ t).mono)
          (inOrder_cons_work (fun t => ?_) (inOrder_cons_work (fun t => (finishIfDue_work _ t).mono)
          (inOrder_one_work fun t => (arbitrate_work t).mono))) s).roomKept h
        split
        · exact (settleIfLanded_work _ t).mono
        · exact Work.refl t

/-! ## A blank's entry into its stock (R140, R142) -/

theorem stock_roomKept {s : State} {p : LaneId} (k : StockEntry) (room : s.lanes[p].stock.length < 2)
    (h : RoomKept none s) : RoomKept (some p) (modifyStock p (fun stock => stock ++ [k]) s) := by
  refine ⟨h.1, fun q => ?_⟩
  by_cases e : q = p
  · subst e
    exact ⟨by simpa [modifyStock] using room, fun other => absurd rfl other⟩
  · rw [modifyStock, setLane_other s p q _ e]
    exact ⟨(h.2 q).1, fun _ => (h.2 q).2 (by simp)⟩

theorem blankUnit_roomKept (p : LaneId) (addr : Nat) (image : List Byte) {s : State} (h : RoomKept none s)
    (room : s.lanes[p].stock.length < 2) : RoomKept (some p) (blankUnit p addr image s) := by
  unfold blankUnit
  split
  · dsimp only
    split
    · exact (returnRecord_work _ _ _ s).roomKept (h.of_none _)
    · exact ((blankAvailable_work p _).mono.trans (arbitrate_work _).mono : Work arbitrateKinds _ _).roomKept
        (stock_roomKept _ room h)
  · exact (Work.act (K := [.halt]) (.halt s _)).roomKept (h.of_none _)

theorem setWalker_roomKept {s : State} {p : LaneId} (x : Walker) (other : x.state ≠ .reading) (h : RoomKept (some p) s) :
    RoomKept none (setWalker (.blank p) x s) := by
  refine ⟨h.1, fun q => ⟨(h.2 q).1, fun _ reading => ?_⟩⟩
  by_cases e : q = p
  · subst e
    exact absurd (by simpa [setWalker] using reading) other
  · refine (h.2 q).2 (fun same => e (Option.some.inj same)) ?_
    exact (congrArg Walker.state (setWalker_other s (.blank p) (.blank q) x (by simpa using e))).symm.trans reading

theorem walkOn_roomKept {s : State} {p : LaneId} (a : Nat) (link : Link) (awake : Awake s) (h : RoomKept (some p) s) :
    RoomKept none (walkOn (.blank p) a link s) := by
  cases link with
  | hold => exact (giveLeave_work _).roomKept (setWalker_roomKept _ (by simp [heldAt]) h)
  | next b => exact (giveLeave_work _).roomKept (setWalker_roomKept _ (by simp [nextAt]) h)
  | malformed =>
    refine ((Work.act (K := [.halt]) (.halt s _)).roomKept h).of_rest ?_
    rcases halt_cases .chainMalformed s with ⟨halted, _⟩ | ⟨_, ev, os, _, e⟩
    · exact absurd (awake.1.symm.trans ((halted_iff s).1 halted)) (by decide)
    · rw [e]
      exact ⟨rfl, rfl, rfl⟩

/-! ## Takes -/

/-- A take whose unit keeps the bounds; the lane it takes for may be exempt between the unit's work and the walker's. -/
theorem takeRecord_roomKept {exempt : Option LaneId} {K : List Kind} {w : WalkerId} {r : ReadResult}
    {unit : Nat → List Byte → State → State} {s : State}
    (unit_work : ∀ a image t, Work K t (unit a image t)) (hK : ∀ k ∈ K, k ∉ gaitKinds)
    (unit_kept : ∀ a image, (s.walker w).state = .reading → RoomKept none (recordTaken s) →
      RoomKept exempt (unit a image (recordTaken s)))
    (walk_kept : ∀ a link t, Awake t → RoomKept exempt t → RoomKept none (walkOn w a link t))
    (h : RoomKept none s) : RoomKept none (takeRecord w unit r s) := by
  have halts (c : Cause) : RoomKept none (halt c s) := (Work.act (K := [.halt]) (.halt s _)).roomKept h
  have taken (a : Nat) (image : List Byte) (link : Link) (walking : s.walking = true)
      (reading : (s.walker w).state = .reading) :
      RoomKept none (inOrder [recordTaken, unit a image, walkOn w a link] s) := by
    have awake := recordTaken_awake walking
    have live : s.halted = false := by
      rw [← Bool.not_eq_true, halted_iff]
      intro halted
      simp [State.walking, halted] at walking
    have going : (recordTaken s).halted = false := by simp [State.halted, awake.1]
    rw [inOrder_step _ _ _ live, inOrder_step _ _ _ going]
    have kept := unit_kept a image reading ((recordTaken_work s).roomKept h)
    rcases awake.work (unit_work a image _) hK with still | ended
    · have on : (unit a image (recordTaken s)).halted = false := by simp [State.halted, still.1]
      rw [inOrder_step _ _ _ on, inOrder_nil]
      exact walk_kept a link _ still kept
    · rw [inOrder_halted _ _ ((halted_iff _).2 ended.1)]
      exact kept.of_rest ended.2
  unfold takeRecord
  split
  · rename_i reading
    simp only [Bool.and_eq_true, beq_iff_eq] at reading
    split
    · exact halts _
    · exact h
    · split
      · exact halts _
      · exact taken _ _ _ reading.1 reading.2
  · exact h

/-! ## Every command -/

theorem recordTaken_lanes (s : State) : (recordTaken s).lanes = s.lanes := by
  unfold recordTaken
  split <;> rfl

theorem exec_roomKept {c : Instr} {s t : State} (h : exec c s = .next t) (room : RoomKept none s) : RoomKept none t := by
  have work := exec_work h
  cases c
  case noteTake r =>
    obtain rfl := eq_of_next_if h
    exact takeRecord_roomKept (exempt := none) noteUnit_work (by decide)
      (fun a image _ kept => noteUnit_roomKept a image kept)
      (fun a link t _ kept => (walkOn_work .note a link t).roomKept kept) room
  case blankTake p r =>
    obtain rfl := eq_of_next_if h
    refine takeRecord_roomKept (exempt := some p) (blankUnit_work p) (by decide)
      (fun a image reading kept => blankUnit_roomKept p a image kept ?_)
      (fun a link t awake kept => walkOn_roomKept a link awake kept) room
    rw [recordTaken_lanes]
    exact (room.2 p).2 (by simp) reading
  all_goals exact work.roomKept room (by dsimp only [commandKinds]; decide)

theorem storesSound_kept {s t : State} (sound : s.storesSound) (h : step s = .next t) : t.storesSound := by
  rw [storesSound_iff] at sound ⊢
  exact step_keeps (P := RoomKept none) (fun _ _ _ e room => exec_roomKept e room) (fun _ _ room => room)
    (fun _ room => room) sound h

/-- Settles O58: the walkers and DOZING by what begins and ends an event, the pen and the stocks by the acts that add to
them. -/
theorem walkersAndStoresStaySound : Obligations.WalkersAndStoresStaySound :=
  ⟨fun _ _ sound h => walkersSound_kept sound h, fun _ _ sound h => storesSound_kept sound h⟩

end Sys2Proof.Proofs

/-! PROOFS. The queues and the lists after every step (R101, R111, R112, R114, R136). Contexts join a list only where they
stand on none; what joins them ends with a grant, which leaves no ready context beside an idle unit. -/

namespace Sys2Proof.Proofs

open Sys2Proof Sys2Proof.Machine

-- In order: declarations that run `decide` side by side wait for each other, each on a thread of its own.
set_option Elab.async false

/-! ## The parts of the invariant -/

/-- No repeats, the grantee off the lists, the combine the grantee's. -/
def ListsKept (s : State) : Prop :=
  s.solveQueue.Nodup ∧ s.steering.waitList.Nodup ∧ s.readyContexts.Nodup ∧
    (∀ c, s.arbiter.grantee = some c → c ∉ s.readyContexts) ∧ ∀ op, s.combine = some op → s.arbiter.grantee = some op.ctx

/-- No ready context waits while the unit has no grantee (R112). -/
def GrantMade (s : State) : Prop := s.arbiter.grantee = none → s.readyContexts = []

theorem listsSound_iff (s : State) : s.listsSound ↔ ListsKept s ∧ GrantMade s := by
  simp only [State.listsSound, ListsKept, GrantMade, and_assoc]

theorem nodup_makeReady {s : State} {c : CtxId} (u : Nat) (nodup : s.readyContexts.Nodup) (unlisted : c ∉ s.readyContexts) :
    (makeReady c u s).readyContexts.Nodup :=
  (makeReady_perm c u s).nodup_iff.2 (nodup.append (List.nodup_singleton c) (List.disjoint_singleton.2 unlisted))

theorem mem_makeReady {s : State} {c d : CtxId} {u : Nat} (h : d ∈ (makeReady c u s).readyContexts) :
    d ∈ s.readyContexts ∨ d = c := by
  simpa using (makeReady_perm c u s).mem_iff.1 h

theorem readyContexts_reset : State.reset.readyContexts = [] := by decide

theorem Act.listsKept {k : Kind} {s t : State} (a : Act k s t) (hk : k ∉ [Kind.rejoin, .turn, .combine])
    (h : ListsKept s) : ListsKept t := by
  obtain ⟨queue, wait, ready, off, mine⟩ := h
  cases a with
  | halt _ c => rcases halt_cases c s with ⟨_, e⟩ | ⟨_, ev, os, _, e⟩ <;> rw [e] <;> exact ⟨queue, wait, ready, off, mine⟩
  | queue _ q nodup => exact ⟨nodup queue, wait, ready, off, mine⟩
  | wait _ l nodup => exact ⟨queue, nodup wait, ready, off, mine⟩
  | ready _ r nodup within => exact ⟨queue, wait, nodup ready, fun c grantee mem => off c grantee (within c mem), mine⟩
  | join _ c u unlisted ungranted =>
    refine ⟨queue, wait, nodup_makeReady u ready fun mem => ?_, fun d grantee mem => ?_, mine⟩
    · exact absurd ((mem_readyContexts s c).1 mem) (by simp [unlisted])
    · rcases mem_makeReady mem with before | rfl
      · exact off d grantee before
      · exact ungranted grantee
  | reset =>
    have empty : (resetBlocks s).readyContexts = [] := readyContexts_reset
    exact ⟨List.nodup_nil, List.nodup_nil, empty ▸ List.nodup_nil, fun _ e => absurd e (by simp [resetBlocks, State.reset]),
      fun _ e => absurd e (by simp [resetBlocks, State.reset])⟩
  | rejoin | turn | combine => exact absurd (by decide) hk
  | _ => exact ⟨queue, wait, ready, off, mine⟩

theorem Work.listsKept {K : List Kind} {s t : State} (w : Work K s t) (h : ListsKept s)
    (hK : ∀ k ∈ K, k ∉ [Kind.rejoin, .turn, .combine] := by decide) : ListsKept t :=
  w.keeps (fun k mem _ _ act => act.listsKept (hK k mem)) h

theorem Act.grantMade {k : Kind} {s t : State} (a : Act k s t) (hk : k ∉ [Kind.join, .rejoin, .turn])
    (h : GrantMade s) : GrantMade t := by
  cases a with
  | halt _ c => rcases halt_cases c s with ⟨_, e⟩ | ⟨_, ev, os, _, e⟩ <;> rw [e] <;> exact h
  | ready _ r nodup within =>
    intro idle
    refine List.eq_nil_iff_forall_not_mem.2 fun c mem => ?_
    have before := within c mem
    rw [h idle] at before
    exact List.not_mem_nil before
  | reset => exact fun _ => readyContexts_reset
  | join | rejoin | turn => exact absurd (by decide) hk
  | _ => exact h

theorem Act.listsSound {k : Kind} {s t : State} (a : Act k s t) (hk : k ∉ [Kind.join, .rejoin, .turn, .combine])
    (h : s.listsSound) : t.listsSound := by
  rw [listsSound_iff] at h ⊢
  simp only [List.mem_cons, List.not_mem_nil, or_false, not_or] at hk
  obtain ⟨join, rejoin, turn, combine⟩ := hk
  exact ⟨a.listsKept (by simp [rejoin, turn, combine]) h.1, a.grantMade (by simp [join, rejoin, turn]) h.2⟩

theorem Work.listsSound {K : List Kind} {s t : State} (w : Work K s t) (h : s.listsSound)
    (hK : ∀ k ∈ K, k ∉ [Kind.join, .rejoin, .turn, .combine] := by decide) : t.listsSound :=
  w.keeps (fun k mem _ _ act => act.listsSound (hK k mem)) h

/-! ## The grantee, the combine and the engine -/

theorem Act.grantee_eq {k : Kind} {s t : State} (a : Act k s t) (hk : k ∉ [Kind.turn, .reset]) :
    t.arbiter.grantee = s.arbiter.grantee := by
  cases a with
  | halt _ c => rcases halt_cases c s with ⟨_, e⟩ | ⟨_, ev, os, _, e⟩ <;> rw [e]
  | turn | reset => exact absurd (by decide) hk
  | _ => rfl

theorem Act.combine_eq {k : Kind} {s t : State} (a : Act k s t) (hk : k ∉ [Kind.combine, .reset]) :
    t.combine = s.combine := by
  cases a with
  | halt _ c => rcases halt_cases c s with ⟨_, e⟩ | ⟨_, ev, os, _, e⟩ <;> rw [e]
  | combine | reset => exact absurd (by decide) hk
  | _ => rfl

theorem Act.engine_eq {k : Kind} {s t : State} (a : Act k s t) (hk : k ∉ [Kind.halt, .engine, .reset]) :
    t.control.engine = s.control.engine := by
  cases a with
  | halt | engine | reset => exact absurd (by decide) hk
  | _ => rfl

theorem Work.grantee_eq {K : List Kind} {s t : State} (w : Work K s t)
    (hK : ∀ k ∈ K, k ∉ [Kind.turn, .reset] := by decide) : t.arbiter.grantee = s.arbiter.grantee :=
  w.same (fun s => s.arbiter.grantee) fun k mem _ _ act => act.grantee_eq (hK k mem)

theorem Work.combine_eq {K : List Kind} {s t : State} (w : Work K s t)
    (hK : ∀ k ∈ K, k ∉ [Kind.combine, .reset] := by decide) : t.combine = s.combine :=
  w.same State.combine fun k mem _ _ act => act.combine_eq (hK k mem)

theorem Work.engine_eq {K : List Kind} {s t : State} (w : Work K s t)
    (hK : ∀ k ∈ K, k ∉ [Kind.halt, .engine, .reset] := by decide) : t.control.engine = s.control.engine :=
  w.same (fun s => s.control.engine) fun k mem _ _ act => act.engine_eq (hK k mem)

/-! ## The grant (R112, R114) -/

theorem beginCombine_listsKept {s : State} {c : CtxId} (grantee : s.arbiter.grantee = some c) (h : ListsKept s) :
    ListsKept (beginCombine c s) ∧ (beginCombine c s).arbiter.grantee = some c := by
  unfold beginCombine
  split
  · exact ⟨h, grantee⟩
  · rename_i x _
    obtain ⟨queue, wait, ready, off, -⟩ := h
    have begun : ListsKept { s with
        combine := some (combineFor c x s.now)
        arbiter := { s.arbiter with turnCount := s.arbiter.turnCount + 1 } } := by
      refine ⟨queue, wait, ready, off, fun op e => ?_⟩
      obtain rfl := Option.some.inj e
      exact grantee
    have rest (u : State) := (foldl_work (fun t e => (claimFor_work c t e).mono) x.lost u).trans
      (foldl_work (K := [.marks, .read]) (fun t m => (issueMemberReads_work x.profile.windowBytes
        (combineFor c x s.now).window (combineFor c x s.now).validLength t m).mono) (combineFor c x s.now).members _)
    exact ⟨(rest _).listsKept begun, (rest _).grantee_eq.trans grantee⟩

theorem grantTurn_listsKept {s : State} (c : CtxId) (idle : s.arbiter.grantee = none) (h : ListsKept s) :
    ListsKept (grantTurn c s) ∧ (grantTurn c s).arbiter.grantee = some c := by
  obtain ⟨queue, wait, ready, -, mine⟩ := h
  refine beginCombine_listsKept rfl ⟨queue, wait, (unready_sublist c s).nodup ready, fun d grantee => ?_, fun op e => ?_⟩
  · obtain rfl := Option.some.inj grantee
    exact not_mem_unready c s ready
  · exact absurd (idle.symm.trans (mine op e)) (by simp)

theorem mostUrgentReady_eq_none (s : State) : mostUrgentReady s = none ↔ s.readyContexts = [] := by
  rw [mostUrgentReady, List.findSome?_eq_none_iff, State.readyContexts, List.flatten_eq_nil_iff]
  simp

theorem grantNext_listsSound {s : State} (h : ListsKept s) : (grantNext s).listsSound := by
  rw [listsSound_iff]
  unfold grantNext
  split
  · rename_i granted
    exact ⟨h, fun idle => absurd granted (by simp [idle])⟩
  · rename_i idle
    have idle : s.arbiter.grantee = none := by simpa using idle
    split
    · rename_i empty
      exact ⟨h, fun _ => (mostUrgentReady_eq_none s).1 empty⟩
    · rename_i c _
      obtain ⟨kept, grantee⟩ := grantTurn_listsKept c idle h
      refine ⟨(reevaluate_work _).listsKept kept, fun none => ?_⟩
      exact absurd (none.symm.trans ((reevaluate_work _).grantee_eq.trans grantee)) (by simp)

theorem arbitrate_listsSound {s : State} (h : ListsKept s) : (arbitrate s).listsSound :=
  grantNext_listsSound ((reevaluate_work _).listsKept ((retryWaiting_work s).listsKept h))

/-- Work that joins no list, and then the grant of the event. -/
theorem inOrder_arbitrate_listsSound {K : List Kind} {fs gs : List (State → State)} {s : State}
    (work : ∀ f ∈ fs, ∀ t, Work K t (f t)) (after : ∀ g ∈ gs, ∀ t, t.listsSound → (g t).listsSound) (h : s.listsSound)
    (hK : ∀ k ∈ K, k ∉ [Kind.join, .rejoin, .turn, .combine] := by decide) :
    (inOrder (fs ++ arbitrate :: gs) s).listsSound := by
  refine inOrder_keeps (fun f mem t sound => ?_) h
  rcases List.mem_append.1 mem with early | late
  · exact (work f early t).listsSound sound hK
  · rcases List.mem_cons.1 late with rfl | late
    · exact arbitrate_listsSound ((listsSound_iff t).1 sound).1
    · exact after f late t sound

/-! ## The end of a turn (R113) -/

/-- A completion's context still holds the unit, and no combine is in flight. -/
def TurnKept (c : CtxId) (s : State) : Prop := ListsKept s ∧ s.arbiter.grantee = some c ∧ s.combine = none

theorem TurnKept.listsSound {c : CtxId} {s : State} (h : TurnKept c s) : s.listsSound :=
  (listsSound_iff s).2 ⟨h.1, fun idle => absurd (idle.symm.trans h.2.1) (by simp)⟩

theorem TurnKept.work {K : List Kind} {c : CtxId} {s t : State} (w : Work K s t) (h : TurnKept c s)
    (hK : ∀ k ∈ K, k ∉ [Kind.rejoin, .turn, .combine, .reset] := by decide) : TurnKept c t := by
  have away (k : Kind) (mem : k ∈ K) := hK k mem
  simp only [List.mem_cons, List.not_mem_nil, or_false, not_or] at away
  refine ⟨w.listsKept h.1 fun k mem => ?_, (w.grantee_eq fun k mem => ?_).trans h.2.1,
    (w.combine_eq fun k mem => ?_).trans h.2.2⟩
  all_goals
    obtain ⟨rejoin, turn, combine, reset⟩ := away k mem
    simp [rejoin, turn, combine, reset]

theorem ungrant_listsKept {c : CtxId} {s : State} (h : TurnKept c s) : ListsKept (ungrant s) := by
  obtain ⟨⟨queue, wait, ready, -, -⟩, -, none⟩ := h
  exact ⟨queue, wait, ready, fun _ e => absurd e.symm (Option.some_ne_none _), fun op e => absurd (none.symm.trans e) (by simp)⟩

theorem endOfTurn_listsKept {c : CtxId} {s : State} (h : TurnKept c s) : ListsKept (endOfTurn c s) := by
  have ungranted := ungrant_listsKept h
  unfold endOfTurn
  split
  · exact ungranted
  · split
    · split
      · exact (beginCombine_listsKept h.2.1 h.1).1
      · obtain ⟨queue, wait, ready, -, mine⟩ := ungranted
        exact ⟨queue, wait, nodup_makeReady _ ready (h.1.2.2.2.1 c h.2.1), fun _ e => absurd e.symm (Option.some_ne_none _), mine⟩
    · exact ungranted

theorem combineCompletion_listsSound {s : State} {op : Combine} (reads : List SurvivorRead) (fault : Bool)
    (inFlight : s.combine = some op) (h : s.listsSound) :
    (inOrder [actOnCombine op reads fault, finishIfDue op.ctx, retryWaiting, reevaluate, endOfTurn op.ctx, arbitrate,
      endEvent] { s with combine := none }).listsSound := by
  obtain ⟨⟨queue, wait, ready, off, mine⟩, -⟩ := (listsSound_iff s).1 h
  have ended : TurnKept op.ctx { s with combine := none } :=
    ⟨⟨queue, wait, ready, off, fun _ e => absurd e.symm (Option.some_ne_none _)⟩, mine op inFlight, rfl⟩
  have early (t : State) : Work (deliverKinds ++ finishKinds ++ retryKinds ++ readyKinds) t
      (inOrder [actOnCombine op reads fault, finishIfDue op.ctx, retryWaiting, reevaluate] t) :=
    inOrder_cons_work (fun t => (actOnCombine_work _ _ _ t).mono) (inOrder_cons_work (fun t => (finishIfDue_work _ t).mono)
      (inOrder_cons_work (fun t => (retryWaiting_work t).mono) (inOrder_one_work fun t => (reevaluate_work t).mono))) t
  change (inOrder ([actOnCombine op reads fault, finishIfDue op.ctx, retryWaiting, reevaluate] ++
    [endOfTurn op.ctx, arbitrate, endEvent]) { s with combine := none }).listsSound
  rw [inOrder_append]
  have kept := TurnKept.work (early { s with combine := none }) ended
  generalize inOrder [actOnCombine op reads fault, finishIfDue op.ctx, retryWaiting, reevaluate] { s with combine := none }
    = u at kept ⊢
  by_cases halted : u.halted = true
  · rw [inOrder_halted _ _ halted]
    exact kept.listsSound
  · rw [Bool.not_eq_true] at halted
    have live : (endOfTurn op.ctx u).halted = false := by
      rw [State.halted, (endOfTurn_work op.ctx u).engine_eq]
      exact halted
    rw [inOrder_step _ _ _ halted, inOrder_step _ _ _ live]
    exact (inOrder_one_work endEvent_work _).listsSound (arbitrate_listsSound (endOfTurn_listsKept kept))

/-! ## Every command -/

theorem takeRecord_listsSound {w : WalkerId} {unit : Nat → List Byte → State → State}
    (unit_kept : ∀ a image t, t.listsSound → (unit a image t).listsSound) (r : ReadResult) {s : State} (h : s.listsSound) :
    (takeRecord w unit r s).listsSound := by
  have halts (c : Cause) : (halt c s).listsSound := (Work.act (K := [.halt]) (.halt s c)).listsSound h
  unfold takeRecord
  split
  · split
    · exact halts _
    · exact h
    · rename_i image a _
      split
      · exact halts _
      · refine inOrder_keeps (fun f mem t sound => ?_) h
        simp only [List.mem_cons, List.not_mem_nil, or_false] at mem
        rcases mem with rfl | rfl | rfl
        · exact (recordTaken_work t).listsSound sound
        · exact unit_kept a image t sound
        · exact (walkOn_work w a _ t).listsSound sound
  · exact h

theorem noteUnit_listsSound (addr : Nat) (image : List Byte) (s : State) (h : s.listsSound) :
    (noteUnit addr image s).listsSound := by
  unfold noteUnit
  split
  · exact (Work.act (K := [.halt]) (.halt s _)).listsSound h
  · unfold dispatchNote
    split
    · exact (writeNoteOutcome_work _ _ s).listsSound h
    · split
      · exact (enterPen_work _ _ s).listsSound h
      · refine inOrder_arbitrate_listsSound (K := applyKinds ++ finishKinds) (fs := [_, _, _]) (gs := [])
          (fun f mem t => ?_) (fun _ mem => absurd mem List.not_mem_nil) h
        simp only [List.mem_cons, List.not_mem_nil, or_false] at mem
        rcases mem with rfl | rfl | rfl
        · exact (applyNote_work _ _ _ t).mono
        · dsimp only
          split
          · exact (settleIfLanded_work _ t).mono
          · exact Work.refl t
        · exact (finishIfDue_work _ t).mono

theorem blankUnit_listsSound (p : LaneId) (addr : Nat) (image : List Byte) (s : State) (h : s.listsSound) :
    (blankUnit p addr image s).listsSound := by
  unfold blankUnit
  split
  · dsimp only
    split
    · exact (returnRecord_work _ _ _ s).listsSound h
    · have stocked := (Work.act (K := [.stock, .retry]) (.stock s p
        { blank := readBlank addr image, reservation := none, claim := none })).trans (blankAvailable_work p _).mono
      exact arbitrate_listsSound (stocked.listsKept ((listsSound_iff s).1 h).1)
  · exact (Work.act (K := [.halt]) (.halt s _)).listsSound h

theorem exec_listsSound {c : Instr} {s t : State} (h : exec c s = .next t) (sound : s.listsSound) : t.listsSound := by
  have work := exec_work h
  have kept := ((listsSound_iff s).1 sound).1
  have ends (g : State → State) (mem : g ∈ [endEvent]) (t : State) (sound : t.listsSound) : (g t).listsSound := by
    rw [List.mem_singleton.1 mem]
    exact (endEvent_work t).listsSound sound
  cases c
  case noteTake r =>
    obtain rfl := eq_of_next_if h
    exact takeRecord_listsSound noteUnit_listsSound r sound
  case blankTake p r =>
    obtain rfl := eq_of_next_if h
    exact takeRecord_listsSound (blankUnit_listsSound p) r sound
  case readCompletionTimeout read =>
    obtain rfl := eq_of_next h
    split
    · split
      · exact ((reachTime_work _ s).mono.trans (finishStart_work _ _).mono : Work (.clock :: loadKinds) s _).listsSound sound
      · exact sound
    · split
      · exact ((reachTime_work _ s).mono.trans (finishReload_work _ _).mono : Work (.clock :: loadKinds) s _).listsSound sound
      · exact sound
    · split
      · exact ((reachTime_work _ s).mono.trans (Work.act (.halt _ _)) : Work [.clock, .halt] s _).listsSound sound
      · exact sound
    · split
      · rename_i op _ inFlight
        obtain ⟨⟨queue, wait, ready, off, mine⟩, made⟩ := (listsSound_iff s).1 sound
        refine (listsSound_iff _).2 ⟨⟨queue, wait, ready, off, fun op' e => ?_⟩, made⟩
        obtain rfl := Option.some.inj e
        exact mine op inFlight
      · exact sound
  case solveCompletion =>
    obtain rfl := eq_of_next h
    split
    · rename_i v _ _
      refine inOrder_arbitrate_listsSound (K := steerKinds ++ finishKinds) (fs := [actOnSolve v, finishIfDue v.ctx, beginNext])
        (gs := [endEvent]) (fun f mem t => ?_) ends sound
      simp only [List.mem_cons, List.not_mem_nil, or_false] at mem
      rcases mem with rfl | rfl | rfl
      · exact (actOnSolve_work v t).mono
      · exact (finishIfDue_work _ t).mono
      · exact (beginNext_work t).mono
    · exact sound
  case steeringRetry p =>
    obtain rfl := eq_of_next h
    split
    · have attempts (u : State) (cs : List CtxId) := foldl_work (fun t c => attemptSteering_work c t) cs u
      refine grantNext_listsSound ((reevaluate_work _).listsKept ((attempts _ _).listsKept ?_))
      exact kept
    · exact sound
  case combineGrant =>
    obtain rfl := eq_of_next h
    split
    · exact grantNext_listsSound kept
    · exact sound
  case combineCompletion reads fault =>
    change execCombineCompletion reads fault s = .next t at h
    unfold execCombineCompletion at h
    split at h
    · obtain rfl := eq_of_next_if h
      exact combineCompletion_listsSound reads fault ‹_› sound
    · obtain rfl := eq_of_next h
      exact sound
  case drainFinish c =>
    obtain rfl := eq_of_next h
    split
    · refine inOrder_arbitrate_listsSound (K := finishKinds) (fs := [finishContext c]) (gs := [endEvent])
        (fun f mem t => ?_) ends sound
      rw [List.mem_singleton.1 mem]
      exact finishContext_work c t
    · exact sound
  all_goals exact work.listsSound sound (by dsimp only [commandKinds]; decide)

/-- Settles O60: what joins a list ends with a grant. -/
theorem listsStayDistinct : Obligations.ListsStayDistinct := fun _ _ sound h =>
  step_keeps (P := State.listsSound) (fun _ _ _ e sound => exec_listsSound e sound) (fun _ _ sound => sound)
    (fun _ sound => sound) sound h

/-- Settles O56: at reset nothing is loaded, in use, stocked or queued. -/
theorem resetMeetsTheInvariants : Obligations.ResetMeetsTheInvariants := by
  have rest : State.reset.walkersAtRest := ⟨rfl, rfl, rfl⟩
  refine ⟨(loadedSound_iff _).2 ⟨tablesSound_of_reset, fun _ => ⟨rfl, rfl⟩⟩, walkersSound_of_rest rfl rest,
    ⟨by decide, fun p => ?_⟩, fun c d x y used => ?_, ?_⟩
  · simp [State.reset, Lane.initial]
  · simp [State.reset] at used
  · have clear : State.reset.solveQueue.Nodup ∧ State.reset.steering.waitList.Nodup := by decide
    refine ⟨clear.1, clear.2, readyContexts_reset ▸ List.nodup_nil, fun c e => ?_, fun op e => ?_, fun _ => readyContexts_reset⟩
    · simp [State.reset] at e
    · simp [State.reset] at e

end Sys2Proof.Proofs

/-! PROOFS. The machine's commands on the registers, the event unit and the anchor block (R153 to R158, R165 to R167,
R171). -/

namespace Sys2Proof.Proofs

open Sys2Proof Sys2Proof.Machine

/-! ## The machine -/

/-- Settles O1, by the definition of a step. -/
theorem stepRunsFrontCommand : Obligations.StepRunsFrontCommand := by
  intro c rest s front
  rw [step, front]

/-- A command that tests the size of what a read returned completes when it fits. -/
theorem completes_of_sized {b : Bool} (sized : b = true) (t : State) :
    ∃ u, (if b then Host.Outcome.next t else .refused .illFormed : Host.Outcome State Fault Refusal) = .next u :=
  ⟨t, if_pos sized⟩

/-- Settles O3: the commands that can be refused are those that test an operand. -/
theorem wellFormedCommandsComplete : Obligations.WellFormedCommandsComplete := by
  intro c s fits reads
  cases c
  case ignoredRegisterWrite => exact completes_of_sized fits _
  case startReadCompletion => exact completes_of_sized fits _
  case reloadReadCompletion => exact completes_of_sized fits _
  case orderTake => exact completes_of_sized fits _
  case noteTake => exact completes_of_sized fits _
  case blankTake => exact completes_of_sized fits _
  case revisitCompletion => exact completes_of_sized fits _
  case combineCompletion rs fault =>
    change ∃ t, execCombineCompletion rs fault s = .next t
    unfold execCombineCompletion
    split
    · exact completes_of_sized (reads rs fault _ rfl ‹_›) _
    · exact ⟨s, rfl⟩
  all_goals exact ⟨_, rfl⟩

/-! ## Resets (R167) -/

theorem exec_completion_of_stopped (s : State) (r : ReadResult) (stopped : s.control.engine = .stopped)
    (sized : r.sized 4096 = true) :
    exec (.startReadCompletion r) s = .next s ∧ exec (.reloadReadCompletion r) s = .next s := by
  have still : s.walking = false := by simp [State.walking, stopped]
  constructor
  · change execStartReadCompletion r s = .next s
    rw [execStartReadCompletion, if_pos sized, if_neg (by simp [stopped])]
  · change execReloadReadCompletion r s = .next s
    rw [execReloadReadCompletion, if_pos sized, if_neg (by simp [still])]

/-- Settles O4: a reset gives the reset state, with what it keeps. -/
theorem resetValues : Obligations.ResetValues := by
  refine ⟨fun s => ⟨rfl, rfl⟩, rfl, rfl, rfl, rfl, rfl, rfl, rfl, rfl, rfl, by decide, by decide, rfl, rfl, rfl, rfl, ?_,
    by decide, rfl, rfl, rfl, rfl, rfl, by decide, rfl, exec_completion_of_stopped⟩
  have rest : State.reset.walkersAtRest := ⟨rfl, rfl, rfl⟩
  exact (walkersAtRest_iff _).1 rest

/-! ## Register accesses (R155, R165, R171) -/

theorem anchorAligned_getLsbD (v : BitVec 64) (i : Nat) :
    (anchorAligned v).getLsbD i = (decide (12 ≤ i) && v.getLsbD i) := by
  by_cases low : i < 12
  · simp [anchorAligned, low]
  · have within : v.getLsbD i = (decide (i < 64) && v.getLsbD i) := by
      by_cases h : i < 64
      · simp [h]
      · simp [h, BitVec.getLsbD_of_ge v i (by omega)]
    have back : 12 + (i - 12) = i := by omega
    rw [within]
    simp [anchorAligned, low, back, Nat.le_of_not_lt low]

theorem registerWriteCommand_ignored {offset width value : Nat}
    (h : accessServed offset width = false ∨ (offset = 0x00 ∧ width = 4) ∨ (offset ≠ 0x00 ∧ offset ≠ 0x08)) :
    registerWriteCommand offset width value = .ignoredRegisterWrite offset width value := by
  unfold registerWriteCommand
  split
  · rcases h with unserved | ⟨rfl, rfl⟩ | ⟨other, other'⟩
    · exact absurd unserved (by simp [*])
    · rfl
    · simp [other, other']
  · rfl

theorem contextsInUse_le (s : State) : contextsInUse s ≤ 48 := by
  have bound := List.countP_le_length (p := Option.isSome) (l := s.contexts.toList)
  simpa [contextsInUse] using bound

theorem engine_code_lt (e : Engine) : e.code < 2 ^ 8 := by cases e <;> decide

theorem cause_code_lt (c : Cause) : c.code < 2 ^ 8 := by cases c <;> decide

/-- The five items of STATUS, one after another (file 11, section 11.7). -/
theorem statusWord_toNat (s : State) (pen : s.pen.length ≤ 32) :
    (statusWord s).toNat = s.control.engine.code + 2 ^ 8 * s.control.cause.code + 2 ^ 16 * contextsInUse s +
      2 ^ 24 * s.pen.length + 2 ^ 32 * s.control.generation.toNat := by
  have engine := engine_code_lt s.control.engine
  have cause := cause_code_lt s.control.cause
  have used := contextsInUse_le s
  have generation := s.control.generation.isLt
  rw [statusWord, BitVec.toNat_ofNat, Nat.mod_eq_of_lt]
  omega

theorem extractLsb'_eq_ofNat (x : BitVec 64) (start len v : Nat) (h : x.toNat / 2 ^ start % 2 ^ len = v % 2 ^ len) :
    x.extractLsb' start len = BitVec.ofNat len v := by
  refine BitVec.eq_of_toNat_eq ?_
  rw [BitVec.extractLsb'_toNat, BitVec.toNat_ofNat, Nat.shiftRight_eq_div_pow, h]

theorem statusWord_items (s : State) (pen : s.pen.length ≤ 32) :
    (statusWord s).extractLsb' 0 8 = BitVec.ofNat 8 s.control.engine.code ∧
    (statusWord s).extractLsb' 8 8 = BitVec.ofNat 8 s.control.cause.code ∧
    (statusWord s).extractLsb' 16 8 = BitVec.ofNat 8 (contextsInUse s) ∧
    (statusWord s).extractLsb' 24 8 = BitVec.ofNat 8 s.pen.length ∧
    (statusWord s).extractLsb' 32 16 = s.control.generation ∧
    (statusWord s).extractLsb' 48 16 = 0 := by
  have word := statusWord_toNat s pen
  have engine := engine_code_lt s.control.engine
  have cause := cause_code_lt s.control.cause
  have used := contextsInUse_le s
  have generation := s.control.generation.isLt
  have whole : BitVec.ofNat 16 s.control.generation.toNat = s.control.generation := by simp
  refine ⟨extractLsb'_eq_ofNat _ _ _ _ ?_, extractLsb'_eq_ofNat _ _ _ _ ?_, extractLsb'_eq_ofNat _ _ _ _ ?_,
    extractLsb'_eq_ofNat _ _ _ _ ?_, (extractLsb'_eq_ofNat _ _ _ _ ?_).trans whole, extractLsb'_eq_ofNat _ _ _ 0 ?_⟩
  all_goals
    rw [word]
    omega

theorem registerRead_word (s : State) {offset : Nat} (r : Fin 4) (h : offset = 8 * r.val) :
    registerRead s offset 8 = registerValue s offset := by
  subst h
  have served : accessServed (8 * r.val) 8 = true := by revert r; decide
  rw [registerRead, if_pos served, if_pos rfl, Nat.mul_div_cancel_left _ (by decide), Nat.mul_comm]

/-- A 4-byte read returns the addressed half (R171). -/
theorem registerRead_halves (s : State) (r : Fin 4) :
    registerRead s (8 * r.val) 4 = BitVec.zeroExtend 64 ((registerRead s (8 * r.val) 8).extractLsb' 0 32) ∧
    registerRead s (8 * r.val + 4) 4 = BitVec.zeroExtend 64 ((registerRead s (8 * r.val) 8).extractLsb' 32 32) := by
  have served : accessServed (8 * r.val) 4 = true ∧ accessServed (8 * r.val + 4) 4 = true := by revert r; decide
  have half (word : BitVec 64) (start : Nat) :
      BitVec.ofNat 64 (word.toNat / 2 ^ start % 2 ^ 32) = BitVec.zeroExtend 64 (word.extractLsb' start 32) := by
    refine BitVec.eq_of_toNat_eq ?_
    have lt : word.toNat / 2 ^ start % 2 ^ 32 < 2 ^ 32 := Nat.mod_lt _ (by decide)
    simp only [BitVec.truncate_eq_setWidth, BitVec.toNat_setWidth, BitVec.extractLsb'_toNat, BitVec.toNat_ofNat,
      Nat.shiftRight_eq_div_pow]
  have low : 8 * r.val / 8 * 8 = 8 * r.val ∧ 8 * (8 * r.val % 8) = 0 := by omega
  have high : (8 * r.val + 4) / 8 * 8 = 8 * r.val ∧ 8 * ((8 * r.val + 4) % 8) = 32 := by omega
  rw [registerRead_word s r rfl]
  constructor
  · rw [registerRead, if_pos served.1, if_neg (by decide), low.1, low.2]
    exact half _ 0
  · rw [registerRead, if_pos served.2, if_neg (by decide), high.1, high.2]
    exact half _ 32

theorem registerRead_elsewhere (s : State) (offset width : Nat) (h : accessServed offset width = false ∨ 0x20 ≤ offset) :
    registerRead s offset width = 0 := by
  unfold registerRead
  split
  · have past : 0x20 ≤ offset := h.resolve_left (by simp [*])
    have value : registerValue s (offset / 8 * 8) = 0 := by
      unfold registerValue
      rw [if_neg (by omega), if_neg (by omega), if_neg (by omega)]
    simp [value]
  · rfl

theorem accessServed_events (offset width : Nat) :
    (accessServed offset width && offset == 0x18) = decide (offset = 0x18 ∧ (width = 4 ∨ width = 8)) := by
  by_cases at_events : offset = 0x18
  · subst at_events
    by_cases four : width = 4
    · subst four; rfl
    · by_cases eight : width = 8
      · subst eight; rfl
      · simp [accessServed, four, eight]
  · simp [at_events]

theorem exec_eventsRead (s : State) : exec .eventsRead s = .next { s with
    events := { s.events with bits := 0 }
    out := s.out ++ [.reply (BitVec.zeroExtend 64 s.events.bits)] } := rfl

/-- EVENTS read by either width: its eight bits stand in the lower half (R165). -/
theorem registerRead_events (s : State) {offset width : Nat} (events : offset = 0x18 ∧ (width = 4 ∨ width = 8)) :
    registerRead s offset width = BitVec.zeroExtend 64 s.events.bits := by
  have word : registerRead s 0x18 8 = BitVec.zeroExtend 64 s.events.bits := registerRead_word s 3 rfl
  obtain ⟨rfl, rfl | rfl⟩ := events
  · have half := (registerRead_halves s 3).1
    rw [show 8 * (3 : Fin 4).val = 0x18 from rfl, word] at half
    rw [half]
    refine BitVec.eq_of_toNat_eq ?_
    have bits := s.events.bits.isLt
    simp only [BitVec.truncate_eq_setWidth, BitVec.toNat_setWidth, BitVec.extractLsb'_toNat]
    omega
  · exact word

/-- Settles O5: the writes by what they test, the reads by the register they address. -/
theorem registerAccesses : Obligations.RegisterAccesses := by
  refine ⟨fun v s => ⟨fun stopped => ⟨anchorAligned v, fun i low => ?_, fun i high => ?_, ?_⟩, fun other => ?_⟩,
    fun offset width value s bound => ⟨registerWriteCommand_ignored, fun ignored =>
      (congrArg (exec · s) ignored).symm.trans (exec_ignored_write s bound ignored), rfl⟩, fun s pen => ?_,
    fun offset width => ⟨fun events => ⟨?_, fun s => ?_⟩, fun other => ?_⟩⟩
  · simp [anchorAligned_getLsbD, Nat.not_le.2 low]
  · simp [anchorAligned_getLsbD, high]
  · change execAnchorRegisterWrite v s = _
    rw [execAnchorRegisterWrite, if_pos stopped]
  · change execAnchorRegisterWrite v s = _
    rw [execAnchorRegisterWrite, if_neg other]
  · have status : registerRead s 0x10 8 = statusWord s := registerRead_word s 2 rfl
    obtain ⟨engine, cause, used, notes, generation, top⟩ := statusWord_items s pen
    rw [status]
    exact ⟨registerRead_word s 0 rfl, registerRead_word s 3 rfl, engine, cause, used, notes, generation, top,
      registerRead_elsewhere s, registerRead_halves s⟩
  · rw [registerReadCommand, accessServed_events, if_pos (decide_eq_true events)]
  · rw [exec_eventsRead, registerRead_events s events]
  · rw [registerReadCommand, accessServed_events, if_neg (by simpa using other)]

/-! ## The event unit (R165, R166) -/

theorem sendMessage_eq (s : State) : sendMessage s = { s with out := s.out ++ if s.msiInput = true then [.msi] else [] } := by
  unfold sendMessage
  split
  · rfl
  · simp

/-- A bit's rise with the interrupt enable set and the holdoff idle sends one message and starts the holdoff (R166). -/
theorem raise_announced {b : EventBit} {s : State} (clear : s.events.bits.getLsbD b.index = false)
    (enabled : s.events.interruptEnable = true) (idle : s.events.holdoff = none) :
    raise b s = { s with
      events := { s.events with
        bits := s.events.bits ||| (1#8 <<< b.index)
        holdoff := if s.control.timers.holdoff = 0 then none else some (s.now + s.control.timers.holdoff) }
      out := s.out ++ if s.msiInput = true then [.msi] else [] } := by
  rw [raise, if_neg (by simp [clear])]
  simp only [enabled, if_true, announce, idle]
  rw [sendMessage_eq]
  rfl

/-- A bit's rise while the holdoff runs leaves the announcement pending (R166). -/
theorem raise_held_off {b : EventBit} {s : State} (clear : s.events.bits.getLsbD b.index = false)
    (enabled : s.events.interruptEnable = true) (running : s.events.holdoff.isSome = true) :
    raise b s = { s with events := { s.events with
      bits := s.events.bits ||| (1#8 <<< b.index), announcePending := true } } := by
  obtain ⟨d, at_d⟩ := Option.isSome_iff_exists.1 running
  rw [raise, if_neg (by simp [clear])]
  simp only [enabled, if_true, announce, at_d]
  rfl

theorem exec_holdoffExpiry {s : State} {d : Nat} (running : s.events.holdoff = some d) :
    exec .holdoffExpiry s = .next (expireHoldoff (reachTime d s)) := by
  change execHoldoffExpiry s = _
  rw [execHoldoffExpiry, running]

/-- Settles O7: a rise by what the event unit holds, an expiry by what is pending. -/
theorem eventUnitRules : Obligations.EventUnitRules := by
  refine ⟨exec_eventsRead, fun b s => ⟨raise_set s b, fun _ disabled => raise_quiet s b disabled,
    fun clear enabled idle => raise_announced clear enabled idle,
    fun clear enabled running => raise_held_off clear enabled running⟩, fun s d running => ?_⟩
  rw [exec_holdoffExpiry running]
  refine ⟨fun quiet => ?_, fun pending zero => ?_, fun pending nonzero => ?_⟩
  · rw [expireHoldoff, if_neg (by simp [quiet])]
    simp [reachTime, quiet]
  · rw [expireHoldoff, if_pos (by exact pending), if_pos (by exact zero)]
    rfl
  · rw [expireHoldoff, if_pos (by exact pending), if_neg (by exact nonzero), sendMessage_eq]
    rfl

/-! ## The reads of the anchor block (R156, R158) -/

/-- A read that does not cross a 4 KiB boundary is one request (R171). -/
theorem readRequests_inside (a : BitVec 64) (len : Nat) (pos : 0 < len) (inside : a.toNat % 4096 + len ≤ 4096) :
    readRequests a.toNat len = [.read a.toNat len] := by
  rw [readRequests, splitRequest_inside _ _ pos inside, List.map_singleton, requestAddress_inside _ a.isLt]

theorem issueRead_anchor (s t : State) (aligned : s.control.anchor.toNat % 4096 = 0) :
    issueRead s.control.anchor.toNat 4096 t = { t with out := t.out ++ [.read s.control.anchor.toNat 4096] } := by
  rw [issueRead, readRequests_inside _ _ (by decide) (by omega)]
  rfl

/-- Settles O8: START and RELOAD by what they test. -/
theorem startAndReloadReadTheAnchorBlock : Obligations.StartAndReloadReadTheAnchorBlock := by
  refine ⟨fun s stopped => ⟨fun zero => ?_, fun nonzero aligned => ?_⟩, fun s walking aligned => ⟨fun idle => ?_, fun t at_t => ?_⟩⟩
  · rw [exec_start, if_pos stopped, if_pos zero]
    simp [rejectStart, stopped]
  · rw [exec_start, if_pos stopped, if_neg nonzero, issueRead_anchor s _ aligned]
  · rw [exec_reload, if_pos (by simp [(walking_iff s).2 walking, idle]), issueRead_anchor s _ aligned]
  · rw [exec_reload, if_neg (by simp [at_t])]

/-! ## The checks of an anchor image (R156) -/

/-- A valid profile fails validation when one of its values is out of range (R7). -/
theorem fails_iff (p : Profile) : p.fails = true ↔ p.valid = true ∧
    ¬(2 ≤ p.k ∧ p.k ≤ 16 ∧ 1 ≤ p.m ∧ p.m ≤ 6 ∧ p.k + p.m ≤ 20 ∧ p.sizeCode ≤ 4) := by
  simp only [Profile.fails, Bool.and_eq_true, Bool.not_eq_true', Bool.and_eq_false_iff, decide_eq_false_iff_not]
  tauto

theorem decreases_iff (t : SteeringTable) :
    t.decreases = true ↔ ∃ i : Fin 30, t.seps[i.val + 1] < t.seps[i.val] := by
  simp only [SteeringTable.decreases, List.any_eq_true, List.mem_range, decide_eq_true_iff]
  constructor
  · rintro ⟨i, lt, gt⟩
    refine ⟨⟨i, lt⟩, ?_⟩
    simpa [show i < 31 by omega, show i + 1 < 31 by omega] using gt
  · rintro ⟨i, gt⟩
    refine ⟨i, i.isLt, ?_⟩
    simpa [show i.val < 31 by omega, show i.val + 1 < 31 by omega] using gt

/-- Checking is on and some byte of the run lies in no enabled window (R163). -/
theorem not_covered_iff (fences : List FenceWindow) (a len : Nat) :
    (checkingOn fences && !covered fences a len) = true ↔ (∃ w ∈ fences, w.enabled = true) ∧
      ∃ b, a ≤ b ∧ b < a + len ∧ ∀ w ∈ fences, ¬(w.enabled = true ∧ w.base.toNat ≤ b ∧ b < w.limit.toNat) := by
  rw [Bool.and_eq_true, checkingOn_iff, Bool.not_eq_true', ← Bool.not_eq_true, covered_iff]
  simp only [covers_iff]
  push Not
  rfl

theorem any_fails_iff (img : AnchorImage) : img.profiles.toList.any Profile.fails = true ↔
    ∃ i : Fin 16, (img.profiles[i]).valid = true ∧
      ¬(2 ≤ (img.profiles[i]).k ∧ (img.profiles[i]).k ≤ 16 ∧ 1 ≤ (img.profiles[i]).m ∧
        (img.profiles[i]).m ≤ 6 ∧ (img.profiles[i]).k + (img.profiles[i]).m ≤ 20 ∧
        (img.profiles[i]).sizeCode ≤ 4) := by
  rw [List.any_eq_true, mem_vector_iff]
  simp only [fails_iff]

/-- Settles O9: the tests of the model's cascade, each spelled out. -/
theorem imageChecksInOrder : Obligations.ImageChecksInOrder := by
  intro s img fences outside badProfile badOrder
  have fault : imageFault s img = if img.format ≠ 0x62100001 then some .anchorRead
      else if (checkingOn fences && !covered fences s.control.anchor.toNat 4096) = true then some .anchorFence
      else if img.profiles.toList.any Profile.fails = true then some .tableProfile
      else if img.steering.decreases = true then some .tableOrder else none := rfl
  have fence := not_covered_iff fences s.control.anchor.toNat 4096
  have profile := any_fails_iff img
  have order := decreases_iff img.steering
  rw [fault]
  refine ⟨fun format => if_pos format, fun format out => ?_, fun format inside bad => ?_,
    fun format inside good bad => ?_, fun format inside good increasing => ?_⟩
  · rw [if_neg (not_not.2 format), if_pos (fence.2 out)]
  · rw [if_neg (not_not.2 format), if_neg (mt fence.1 inside), if_pos (profile.2 bad)]
  · rw [if_neg (not_not.2 format), if_neg (mt fence.1 inside), if_neg (mt profile.1 good), if_pos (order.2 bad)]
  · rw [if_neg (not_not.2 format), if_neg (mt fence.1 inside), if_neg (mt profile.1 good), if_neg (mt order.1 increasing)]

/-! ## The completions of the anchor reads (R156, R158) -/

theorem exec_startReadCompletion {s : State} (r : ReadResult) (starting : s.control.engine = .starting)
    (sized : r.sized 4096 = true) : exec (.startReadCompletion r) s = .next (finishStart r s) := by
  change execStartReadCompletion r s = _
  rw [execStartReadCompletion, if_pos sized, if_pos starting]

theorem exec_reloadReadCompletion {s : State} (r : ReadResult) (walking : s.walking = true)
    (reading : s.control.reloadAt.isSome = true) (sized : r.sized 4096 = true) :
    exec (.reloadReadCompletion r) s = .next (finishReload r s) := by
  change execReloadReadCompletion r s = _
  rw [execReloadReadCompletion, if_pos sized, if_pos (by simp [walking, reading])]

/-- Settles O10: the interrupt enable is latched under every cause but ANCHOR_READ. -/
theorem startRejectionLoadsNothing : Obligations.StartRejectionLoadsNothing := by
  intro s starting
  refine ⟨exec_startReadCompletion .failed starting rfl, fun image cause size fault => ?_⟩
  rw [exec_startReadCompletion _ starting (by simp [ReadResult.sized, size]), finishStart]
  dsimp only
  rw [fault]
  by_cases read : cause = .anchorRead
  · subst read
    rfl
  · rw [if_neg read]
    cases cause with
    | anchorRead => exact absurd rfl read
    | _ => rfl

/-- The loads of an accepted RELOAD (R158). -/
theorem acceptReload_eq (img : AnchorImage) (s : State) : acceptReload img s = raise .reloadDone { s with
    control := { s.control with
      profiles := img.profiles, steering := img.steering, timers := img.timers
      fences := if s.control.fenceLock = true then s.control.fences else img.fences
      generation := s.control.generation + 1, cause := .none, reloadAt := none
      idleDeadline :=
        if img.timers.idle = 0 then none
        else if s.control.idleDeadline = none then some (s.now + img.timers.idle)
        else s.control.idleDeadline
      idleElapsed :=
        if img.timers.idle = 0 ∨ s.control.idleDeadline = none then false else s.control.idleElapsed }
    lanes := tabulate fun p => { s.lanes[p] with notify := img.notify[p] }
    steering := { s.steering with
      lfsr := if img.reseed = true then
        (if BitVec.ofNat 16 img.steering.seed = 0 then 1 else BitVec.ofNat 16 img.steering.seed)
      else s.steering.lfsr } } := by
  unfold acceptReload
  dsimp only
  congr 1
  unfold idleAfterReload
  cases img.reseed <;> by_cases zero : img.timers.idle = 0 <;> by_cases still : s.control.idleDeadline = none <;>
    simp [loadTables, loadSeed, lfsrSeed, startIdle, zero, still]

/-- Settles O12: a completion by what it read, and the entry to DOZING after it. -/
theorem reloadCompletionReplacesTables : Obligations.ReloadCompletionReplacesTables := by
  intro s at₀ engine reading
  have walking := (walking_iff s).2 engine
  have inFlight : s.control.reloadAt.isSome = true := by simp [reading]
  refine ⟨exec_reloadReadCompletion _ walking inFlight rfl, fun image size => ⟨fun cause fault => ?_, fun passes => ?_⟩⟩
  · rw [exec_reloadReadCompletion _ walking inFlight (by simp [ReadResult.sized, size]), finishReload]
    dsimp only
    rw [fault]
    rfl
  · rw [exec_reloadReadCompletion _ walking inFlight (by simp [ReadResult.sized, size]), finishReload]
    dsimp only
    rw [passes]
    dsimp only
    rw [acceptReload_eq]

/-- Settles O16: a timeout is the failed completion at its time. -/
theorem completionTimeoutEndsReads : Obligations.CompletionTimeoutEndsReads := by
  intro s t
  refine ⟨fun starting at_t => ?_, fun engine at_t => ?_, fun w engine at_t => ?_, fun i op m engine inFlight member => ?_⟩
  · change execReadCompletionTimeout .startAnchor s = _
    simp only [execReadCompletionTimeout, starting, at_t]
    rfl
  · change execReadCompletionTimeout .reloadAnchor s = _
    simp only [execReadCompletionTimeout, (walking_iff s).2 engine, at_t]
    rfl
  · change execReadCompletionTimeout (.walker w) s = _
    simp only [execReadCompletionTimeout, (walking_iff s).2 engine, at_t]
    rfl
  · have working : s.working = true := by
      rcases engine with e | e | e <;> simp [State.working, State.walking, e]
    have change_one : op.members.modify i (fun m => { m with readFailed := true }) =
        op.members.set i { m with readFailed := true } := by
      rw [List.modify_eq_set_getElem?, member]
      rfl
    change execReadCompletionTimeout (.survivor i) s = _
    simp only [execReadCompletionTimeout, working, inFlight, failSurvivor, change_one]
    rfl

end Sys2Proof.Proofs

/-! PROOFS. The walkers' steps (R20 to R27), doze (R160), and WAKE (R161). -/

namespace Sys2Proof.Proofs

open Sys2Proof Sys2Proof.Machine

/-! ## Doze (R160) -/

/-- The entry to DOZING where its conditions hold. -/
theorem enterDoze_of_ready {s : State} (ready : dozeReady s = true) :
    enterDoze s = restartHeld { s with control := { s.control with engine := .dozing } } := by
  rw [enterDoze, if_pos ready]

theorem dozeReady_of {s : State} (running : s.control.engine = .running) (elapsed : s.control.idleElapsed = true)
    (idle : s.control.timers.idle ≠ 0) (unused : contextsInUse s = 0) (pen : s.pen = [])
    (unread : s.control.reloadAt = none) : dozeReady s = true := by
  simp [dozeReady, running, elapsed, idle, unused, pen, unread]

theorem exec_idleDeadlineExpiry {s : State} {d : Nat} (walking : s.walking = true)
    (running : s.control.idleDeadline = some d) :
    exec .idleDeadlineExpiry s = exec .dozeEntry { s with
      now := max s.now d, control := { s.control with idleDeadline := none, idleElapsed := true } } := by
  change execIdleDeadlineExpiry s = _
  simp only [execIdleDeadlineExpiry, walking, running]
  rfl

theorem restartHeld_control (s : State) : (restartHeld s).control = s.control := rfl

theorem recordTaken_of_dozing {s : State} (dozing : s.control.engine = .dozing) : recordTaken s = leaveDoze s :=
  if_pos dozing

theorem leaveDoze_walker (s : State) (w : WalkerId) : (leaveDoze s).walker w =
    if (s.walker w).state = .held then { s.walker w with deadline := some (s.now + s.control.timers.revisit) }
    else s.walker w :=
  restartHeld_walker { s with control := { s.control with engine := .running } } w

/-- Settles O15: the entry by its conditions, the record taken by the engine state. -/
theorem dozeRules : Obligations.DozeRules := by
  have entered (s : State) (running : s.control.engine = .running) (elapsed : s.control.idleElapsed = true)
      (idle : s.control.timers.idle ≠ 0) (unused : contextsInUse s = 0) (pen : s.pen = [])
      (unread : s.control.reloadAt = none) :
      ∃ t, exec .dozeEntry s = .next t ∧ t.control = { s.control with engine := .dozing } ∧
        (∀ w, t.walker w =
          if (s.walker w).state = .held then
            { s.walker w with deadline := some (s.now + s.control.timers.dozeRevisit) }
          else s.walker w) ∧
        t = { s with
          control := t.control, orderWalker := t.orderWalker, noteWalker := t.noteWalker
          blankWalkers := t.blankWalkers } := by
    have entry := enterDoze_of_ready (dozeReady_of running elapsed idle unused pen unread)
    refine ⟨_, congrArg Host.Outcome.next entry, restartHeld_control _, fun w => ?_, rfl⟩
    exact restartHeld_walker { s with control := { s.control with engine := .dozing } } w
  refine ⟨fun s => ⟨fun d engine running => exec_idleDeadlineExpiry ((walking_iff s).2 engine) running,
    fun d running at_d idle unused pen unread => ?_, fun awake => recordTaken_running s awake,
    fun dozing => ⟨?_, fun w => ?_⟩⟩, fun s => ⟨entered s, fun stands => ?_, rfl, rfl⟩⟩
  · rw [exec_idleDeadlineExpiry ((walking_iff s).2 (.inl running)) at_d]
    obtain ⟨t, e, control, walkers, -⟩ := entered { s with
      now := max s.now d, control := { s.control with idleDeadline := none, idleElapsed := true } }
      running rfl idle unused pen unread
    exact ⟨t, e, control, walkers⟩
  · rw [recordTaken_of_dozing dozing]
    rfl
  · rw [recordTaken_of_dozing dozing]
    exact leaveDoze_walker s w
  · refine congrArg Host.Outcome.next (enterDoze_not_ready s ?_)
    rw [← Bool.not_eq_true, dozeReady_iff, not_not]
    rintro ⟨running, elapsed, idle, unused, pen, unread⟩
    simp [running, elapsed, idle, unused, pen, unread] at stands

/-! ## Leave, takes and revisits (R23 to R25) -/

theorem hasLeave_iff (s : State) (w : WalkerId) : hasLeave s w = true ↔
    match w with
    | .order => ∃ c : CtxId, s.contexts[c] = none
    | .note => True
    | .blank p => s.lanes[p].stock.length < 2 := by
  cases w with
  | order => exact decide_eq_true_iff.trans (contextsInUse_lt_iff s)
  | note => exact iff_of_true rfl trivial
  | blank p => exact decide_eq_true_iff

/-- Leave, computed. -/
theorem hasLeave_eq (s : State) (w : WalkerId) : hasLeave s w =
    match w with
    | .order => (List.finRange 48).any fun c => (s.contexts[c]).isNone
    | .note => true
    | .blank p => decide (s.lanes[p].stock.length < 2) := by
  cases w with
  | order =>
    rw [Bool.eq_iff_iff, hasLeave_iff]
    simp
  | note => rfl
  | blank p => rfl

theorem recordLength_eq (w : WalkerId) : recordLength w =
    match w with
    | .order => 512
    | .note => 64
    | .blank _ => 64 := by cases w <;> rfl

/-- Settles O21: leave to take walker by walker, and all walkers at the end of an event. -/
theorem leaveAndTakeMoveTheWalker : Obligations.LeaveAndTakeMoveTheWalker := by
  refine ⟨fun s w a engine next successor => ?_, fun s w a => ⟨rfl, fun b => rfl⟩, fun s => ?_⟩
  · intro leave len
    have walking := (walking_iff s).2 engine
    have e : exec (.leaveToTake w) s = .next (takeLeave w s) := by
      change execLeaveToTake w s = _
      rw [execLeaveToTake, if_pos walking]
    have leave_iff : hasLeave s w = true ↔ leave := hasLeave_iff s w
    have len_eq : recordLength w = len := recordLength_eq w
    rw [e]
    refine ⟨fun has => ?_, fun hasnt => ?_⟩
    · have gets : getsLeave s w = true := by simp [getsLeave, next, successor, leave_iff.2 has]
      rw [takeLeave_eq, leaveReads, afterLeave, if_pos gets, if_pos gets, successor, len_eq]
      cases w <;> rfl
    · have gets : getsLeave s w = false := by simp [getsLeave, mt leave_iff.1 hasnt]
      rw [takeLeave_eq, leaveReads, afterLeave, gets]
      simp [setWalker_self, emit_nil]
  · intro leave len gets t
    refine ⟨fun awake undozed => ?_, fun engine => ?_⟩
    · refine giveLeave_of_still (Bool.eq_false_iff.2 fun walking => ?_)
      exact ((walking_iff s).1 walking).elim awake undozed
    · have moved := giveLeave_eq s ((walking_iff s).2 engine)
      have gets_iff (w : WalkerId) : getsLeave s w = true ↔ gets w := by
        have has : hasLeave s w = leave w := hasLeave_eq s w
        simp [getsLeave, gets, has, and_assoc]
      have t_eq : t = moveWalkers (afterLeave s) (allWalkers.flatMap (leaveReads s)) s := moved
      rw [t_eq]
      refine ⟨fun w => ⟨fun got => ?_, fun hasnt => ?_⟩, ?_, rfl⟩
      · rw [moveWalkers_walker, afterLeave, if_pos ((gets_iff w).2 got)]
      · rw [moveWalkers_walker, afterLeave, if_neg (mt (gets_iff w).1 hasnt)]
      · refine congrArg (s.out ++ ·) (List.flatMap_congr fun w _ => ?_)
        have has : hasLeave s w = leave w := hasLeave_eq s w
        have len_eq : recordLength w = len w := recordLength_eq w
        rw [leaveReads, getsLeave, has, len_eq]
        cases (s.walker w).successor <;> simp

theorem exec_revisitDeadline {s : State} {w : WalkerId} {d : Nat} (walking : s.walking = true)
    (held : (s.walker w).state = .held) (at_d : (s.walker w).deadline = some d) :
    exec (.revisitDeadline w) s = .next (issueRevisit w (reachTime d s)) := by
  change execRevisitDeadline w s = _
  simp only [execRevisitDeadline, walking, held, at_d]
  rfl

theorem exec_revisitCompletion_failed {s : State} {w : WalkerId} (walking : s.walking = true)
    (revisiting : (s.walker w).state = .revisiting) : exec (.revisitCompletion w .failed) s = .next (halt .chainRead s) := by
  change execRevisitCompletion w .failed s = _
  unfold execRevisitCompletion
  rw [if_pos (by rfl), if_pos (by simp [walking, revisiting])]

theorem exec_revisitCompletion_data {s : State} {w : WalkerId} {word : List Byte} (walking : s.walking = true)
    (revisiting : (s.walker w).state = .revisiting) (size : word.length = 8) :
    exec (.revisitCompletion w (.data word)) s = .next (actOnRevisit w (readLink (leNat word)) s) := by
  change execRevisitCompletion w (.data word) s = _
  unfold execRevisitCompletion
  rw [if_pos (by simp [ReadResult.sized, size]), if_pos (by simp [walking, revisiting])]

theorem readLink_hold {word : Nat} (h : word % 2 = 1) : readLink word = .hold := if_pos h

theorem readLink_next {word : Nat} (even : word % 2 = 0) (nonzero : word ≠ 0) (aligned : word % 64 = 0) :
    readLink word = .next word := by
  rw [readLink, if_neg (by omega), if_neg (by omega)]

theorem readLink_malformed {word : Nat} (even : word % 2 = 0) (bad : word = 0 ∨ word % 64 ≠ 0) :
    readLink word = .malformed := by
  rw [readLink, if_neg (by omega), if_pos bad]

theorem issueRevisit_reachTime (w : WalkerId) (d a : Nat) (s : State) (link : heldLinkAddr s w = some a) :
    issueRevisit w (reachTime d s) = { setWalker w { s.walker w with
        state := .revisiting, deadline := none, wakePending := false, readAt := some (max s.now d) } s with
      now := max s.now d, out := s.out ++ readRequests a 8 } := by
  have link' : heldLinkAddr (reachTime d s) w = some a := by
    cases w <;> exact link
  rw [issueRevisit_of_link _ w a link']
  cases w <;> rfl

/-- Settles O22: a revisit by its deadline, a completion by the word read. -/
theorem revisitRules : Obligations.RevisitRules := by
  refine ⟨fun s w d a engine held at_d link => ?_, fun s w engine revisiting => ?_⟩
  · rw [exec_revisitDeadline ((walking_iff s).2 engine) held at_d, issueRevisit_reachTime w d a s link]
  · have walking := (walking_iff s).2 engine
    refine ⟨exec_revisitCompletion_failed walking revisiting, fun word size => ?_⟩
    have read := exec_revisitCompletion_data walking revisiting size
    refine ⟨fun hold quiet => ?_, fun a hold woken link => ?_, fun even nonzero aligned => ?_, fun even bad => ?_⟩
    · rw [read, readLink_hold hold]
      simp only [actOnRevisit, quiet]
      rfl
    · rw [read, readLink_hold hold]
      simp only [actOnRevisit, woken, if_true]
      rw [issueRevisit_of_link s w a link]
      simp only [issueRead, revisiting]
      cases w <;> rfl
    · rw [read, readLink_next even nonzero aligned]
      rfl
    · rw [read, readLink_malformed even bad]
      rfl

/-! ## WAKE (R27, R161) -/

/-- A walker after WAKE. -/
def afterWake (s : State) (w : WalkerId) : Walker :=
  match (s.walker w).state with
  | .held =>
    if (heldLinkAddr s w).isSome then
      { s.walker w with state := .revisiting, deadline := none, wakePending := false, readAt := some s.now }
    else s.walker w
  | .revisiting => { s.walker w with wakePending := true }
  | _ => s.walker w

/-- The reads that WAKE issues for a walker. -/
def wakeReads (s : State) (w : WalkerId) : List Output :=
  if (s.walker w).state = .held then
    match heldLinkAddr s w with
    | none => []
    | some a => readRequests a 8
  else []

theorem wakeWalker_eq (w : WalkerId) (s : State) :
    wakeWalker w s = emit (wakeReads s w) (setWalker w (afterWake s w) s) := by
  unfold wakeWalker wakeReads afterWake
  cases state : (s.walker w).state with
  | held =>
    cases link : heldLinkAddr s w with
    | none => simp [issueRevisit, link, setWalker_self, emit_nil]
    | some a => simp [issueRevisit, link, issueRead]
  | revisiting => simp [emit_nil]
  | next | reading | idle => simp [setWalker_self, emit_nil]

theorem heldLinkAddr_congr {s t : State} {w : WalkerId} (cursor : (t.walker w).cursor = (s.walker w).cursor)
    (anchor : t.control.anchor = s.control.anchor) : heldLinkAddr t w = heldLinkAddr s w := by
  unfold heldLinkAddr
  rw [cursor]
  cases w <;> simp only [startFieldAddr, anchor]

theorem wakeWalkers_eq (s : State) :
    allWalkers.foldl (fun t w => wakeWalker w t) s = moveWalkers (afterWake s) (allWalkers.flatMap (wakeReads s)) s := by
  refine foldl_allWalkers fun w x o e => ?_
  have link : heldLinkAddr (moveWalkers x o s) w = heldLinkAddr s w :=
    heldLinkAddr_congr (by rw [moveWalkers_walker, e]) rfl
  rw [wakeWalker_eq]
  simp only [wakeReads, afterWake, link, moveWalkers_walker, e]
  rfl

/-- The state from which the walkers wake: RUNNING (R161). -/
theorem wakeBase_walker (s : State) (w : WalkerId) :
    (if s.control.engine = .dozing then leaveDoze s else s).walker w = s.walker w ∨
      (s.walker w).state = .held ∧ ∃ d, (if s.control.engine = .dozing then leaveDoze s else s).walker w =
        { s.walker w with deadline := d } := by
  split
  · rw [leaveDoze_walker]
    split
    · exact .inr ⟨‹_›, _, rfl⟩
    · exact .inl rfl
  · exact .inl rfl

/-- Settles O14: each walker is woken once, from RUNNING. -/
theorem wakeSendsHeldWalkersToRevisit : Obligations.WakeSendsHeldWalkersToRevisit := by
  intro s engine
  have base_walker := wakeBase_walker s
  have base_frame : ∃ c o n b, (if s.control.engine = .dozing then leaveDoze s else s) =
      { s with control := c, orderWalker := o, noteWalker := n, blankWalkers := b } ∧
      c = { s.control with
        engine := .running
        idleDeadline :=
          if s.control.engine = .dozing then
            (if s.control.timers.idle = 0 then none else some (s.now + s.control.timers.idle))
          else s.control.idleDeadline
        idleElapsed := if s.control.engine = .dozing then false else s.control.idleElapsed } := by
    by_cases dozing : s.control.engine = .dozing
    · simp only [dozing, if_true]
      exact ⟨_, _, _, _, rfl, rfl⟩
    · have running := engine.resolve_right dozing
      simp only [dozing, if_false]
      exact ⟨_, _, _, _, rfl, by rw [← running]⟩
  obtain ⟨c, o, n, b, base, control⟩ := base_frame
  have run : exec .wake s = .next (moveWalkers (afterWake (if s.control.engine = .dozing then leaveDoze s else s))
      (allWalkers.flatMap (wakeReads (if s.control.engine = .dozing then leaveDoze s else s)))
      (if s.control.engine = .dozing then leaveDoze s else s)) := by
    rw [exec_wake, if_pos ((walking_iff s).2 engine), wakeWalkers_eq]
  refine ⟨_, run, ?_⟩
  generalize (if s.control.engine = .dozing then leaveDoze s else s) = u at base base_walker ⊢
  have state (w : WalkerId) : (u.walker w).state = (s.walker w).state := by
    rcases base_walker w with e | ⟨_, d, e⟩ <;> rw [e]
  have link (w : WalkerId) : heldLinkAddr u w = heldLinkAddr s w := by
    refine heldLinkAddr_congr ?_ ?_
    · rcases base_walker w with e | ⟨_, d, e⟩ <;> rw [e]
    · rw [base, control]
  have awake (w : WalkerId) (other : (s.walker w).state ≠ .held) : u.walker w = s.walker w :=
    (base_walker w).resolve_right fun h => other h.1
  have now : u.now = s.now := by rw [base]
  refine ⟨?_, fun w => ⟨fun held linked => ?_, fun revisiting => ?_, fun stays => ?_⟩, ?_, ?_⟩
  · exact (congrArg State.control base).trans control
  · rw [moveWalkers_walker, afterWake, state, held]
    simp only [link, linked, if_true, now]
    rcases base_walker w with e | ⟨_, d, e⟩ <;> rw [e]
  · rw [moveWalkers_walker, afterWake, state, revisiting]
    simp only [awake w (by simp [revisiting])]
  · rw [moveWalkers_walker, afterWake, state]
    rcases stays with e | e | e <;> simp only [e, awake w (by simp [e])]
  · have out : u.out = s.out := by rw [base]
    refine congrArg₂ (· ++ ·) out (List.flatMap_congr fun w _ => ?_)
    rw [wakeReads, state, link] <;> rfl
  · rw [base]
    rfl

end Sys2Proof.Proofs

/-! PROOFS. Halts and refused writes (R30, R51, R70, R147, R162), and the takes of records (R23, R26, R35, R55, R142). -/

namespace Sys2Proof.Proofs

open Sys2Proof Sys2Proof.Machine

/-! ## A HALTED engine (R162) -/

/-- In HALTED only the event unit still answers commands, and the resets. -/
theorem exec_halted_same {c : Instr} {s t : State} (halted : s.control.engine = .halted)
    (other : c ≠ .reset ∧ c ≠ .coldReset ∧ c ≠ .eventsRead ∧ c ≠ .holdoffExpiry) (h : exec c s = .next t) : t = s := by
  have still : s.walking = false := by simp [State.walking, halted]
  have idle : s.working = false := by simp [State.working, still, halted]
  obtain ⟨reset, coldReset, eventsRead, holdoffExpiry⟩ := other
  cases c
  case reset | coldReset | eventsRead | holdoffExpiry => contradiction
  case start | anchorRegisterWrite => obtain rfl := eq_of_next h; simp [halted]
  case ignoredRegisterWrite => exact (eq_of_next_if h).symm
  case startReadCompletion => obtain rfl := eq_of_next_if h; simp [halted]
  case reloadReadCompletion | revisitCompletion => obtain rfl := eq_of_next_if h; simp [still]
  case orderTake | noteTake | blankTake => obtain rfl := eq_of_next_if h; simp [takeRecord, still]
  case readCompletionTimeout read => obtain rfl := eq_of_next h; cases read <;> simp [still, idle, halted]
  case combineCompletion reads fault =>
    change execCombineCompletion reads fault s = .next t at h
    simp only [execCombineCompletion, idle] at h
    exact (eq_of_next h).symm
  case dozeEntry => obtain rfl := eq_of_next h; exact enterDoze_not_ready s (by simp [dozeReady, halted])
  all_goals
    obtain rfl := eq_of_next h
    simp [still, idle]

theorem expireHoldoff_eq (s : State) : ∃ ev os, expireHoldoff s = { s with events := ev, out := s.out ++ os } ∧
    ∀ o ∈ os, o = .msi := by
  unfold expireHoldoff
  split
  · split
    · exact ⟨_, [], by rw [List.append_nil], by simp⟩
    · rw [sendMessage_eq]
      refine ⟨_, if s.msiInput = true then [.msi] else [], rfl, ?_⟩
      split <;> simp
  · exact ⟨_, [], by rw [List.append_nil], by simp⟩

/-- Settles O18: what still answers in HALTED is the event unit. -/
theorem haltedEngineStaysFrozen : Obligations.HaltedEngineStaysFrozen := by
  intro c s t halted reset coldReset h
  by_cases event : c = .eventsRead ∨ c = .holdoffExpiry
  · rcases event with rfl | rfl
    · obtain rfl := eq_of_next h
      exact ⟨rfl, by simp [newOutputs, Output.isWrite]⟩
    · obtain rfl := eq_of_next h
      split
      · exact ⟨rfl, by simp [newOutputs]⟩
      · rename_i d _
        obtain ⟨ev, os, e, messages⟩ := expireHoldoff_eq (reachTime d s)
        rw [e]
        refine ⟨rfl, fun o mem => ?_⟩
        rw [newOutputs_of_append (os := os) rfl] at mem
        rw [messages o mem]
        rfl
  · push Not at event
    obtain rfl := exec_halted_same halted ⟨reset, coldReset, event.1, event.2⟩ h
    exact ⟨rfl, by simp [newOutputs]⟩

/-! ## Refused writes -/

/-- An event ends at its first effect when that effect is a halt. -/
theorem inOrder_halt {f : State → State} {fs : List (State → State)} {s : State} {c : Cause} (live : s.control.engine ≠ .halted)
    (first : f s = halt c s) : inOrder (f :: fs) s = halt c s := by
  have going : s.halted = false := by rw [← Bool.not_eq_true, halted_iff]; exact live
  rw [inOrder_step _ _ _ going, first, inOrder_halted]
  rw [halted_iff, halt_engine]

theorem writeField_refused {s : State} (c : Cause) {a width : Nat} (value : Nat) (refused : writePermitted s a width = false) :
    writeField c a width value s = halt c s :=
  writeHost_refused s c a _ (by rwa [leBytes_length])

theorem writeLinkTo_refused {s : State} (c : Cause) {a : Nat} (target : Nat) (refused : writePermitted s a 8 = false) :
    writeLinkTo c a target s = halt c s :=
  writeHost_refused s c a _ (by rwa [linkToBytes, leBytes_length])

theorem fillRecord_of_open {s : State} {c : CtxId} {x : Context} {i : Nat} {e : LostEntry} {r : OpenRecord}
    (used : s.contexts[c] = some x) (entry : x.lost[i]? = some e) (opened : e.openRecord = some r) (w S : Nat)
    (bytes check : List Byte) :
    fillRecord c i w S bytes check s = inOrder
      [writeHost .fenceBlank (r.blank.buffer + (w - r.first) * S) bytes,
       writeHost .fenceBlank (r.blank.checkArea + 4 * (w - r.first)) check,
       modifyLost c i fun e => { e with
         openRecord := e.openRecord.map fun r => { r with count := r.count + 1 } }] s := by
  rw [fillRecord, openRecordOf, used, Option.bind_some, entry, Option.bind_some, opened]

/-- Settles O17: a halt by its definition, and each append or delivery by its first refused write. -/
theorem haltsAndRefusedWrites : Obligations.HaltsAndRefusedWrites := by
  refine ⟨fun cause s => ⟨fun halted => halt_halted s cause ((halted_iff s).2 halted), fun live => ?_⟩,
    fun s cause a bytes => ⟨writeHost_permitted s cause a bytes, writeHost_refused s cause a bytes⟩,
    fun s a live => ⟨fun o refused => ?_, fun r n refused => ?_, fun p f refused => ?_, fun empty refused => ?_,
      fun tail at_tail refused => ?_, fun p empty refused => ?_, fun p tail at_tail refused => ?_⟩,
    fun s c x i e r w S bytes check live used entry opened => ?_⟩
  · rw [halt, if_neg (mt (halted_iff s).1 live)]
    rfl
  · exact inOrder_halt live (writeField_refused _ _ refused)
  · exact inOrder_halt live (inOrder_halt live (writeField_refused _ _ refused))
  · exact inOrder_halt live (writeField_refused _ _ refused)
  · refine inOrder_halt live ?_
    rw [empty]
    exact writeLinkTo_refused _ _ refused
  · refine inOrder_halt live ?_
    rw [at_tail]
    exact writeLinkTo_refused _ _ refused
  · refine inOrder_halt live ?_
    rw [empty]
    refine writeLinkTo_refused _ _ ?_
    rw [← refused, filledHeadOffset, laneEntryOffset]
    congr 1
    omega
  · refine inOrder_halt live ?_
    rw [at_tail]
    exact writeLinkTo_refused _ _ refused
  · intro place checkPlace
    have going : s.halted = false := by rw [← Bool.not_eq_true, halted_iff]; exact live
    rw [fillRecord_of_open used entry opened]
    refine ⟨fun refused => inOrder_halt live (writeHost_refused s _ _ _ refused), fun permitted refused => ?_⟩
    rw [inOrder_step _ _ _ going, writeHost_permitted s _ _ _ permitted]
    exact inOrder_halt live (writeHost_refused _ _ _ _ refused)

end Sys2Proof.Proofs

/-! PROOFS. The appends onto the 6210's chains (R29, R47 to R49, R147): planned writes issued one after another. -/

namespace Sys2Proof.Proofs

open Sys2Proof Sys2Proof.Machine

/-! ## One effect, and one after another -/

theorem inOrder_one (f : State → State) {s : State} (live : s.halted = false) : inOrder [f] s = f s := by
  rw [inOrder_step _ _ _ live, inOrder_nil]

theorem inOrder_pair (f g : State → State) {s : State} (live : s.halted = false) (still : (f s).halted = false) :
    inOrder [f, g] s = g (f s) := by
  rw [inOrder_step _ _ _ live, inOrder_one g still]

theorem not_halted {s : State} (h : s.control.engine ≠ .halted) : s.halted = false :=
  Bool.eq_false_iff.2 fun stopped => h ((halted_iff s).1 stopped)

/-! ## Planned writes -/

theorem issue_nil (s : State) : issue [] s = s := by simp [issue, issued]

theorem issued_append (ws vs : List PlannedWrite) (n : Nat) :
    issued (ws ++ vs) n = issued ws n ++ issued vs (n + (issued ws n).length) := by
  induction ws generalizing n with
  | nil => simp [issued]
  | cons w ws ih => simp [issued, ih, Nat.add_assoc]

theorem issue_append (ws vs : List PlannedWrite) (s : State) : issue (ws ++ vs) s = issue vs (issue ws s) := by
  simp [issue, issued_append]

theorem issue_cons (w : PlannedWrite) (ws : List PlannedWrite) (s : State) : issue (w :: ws) s = issue ws (issue [w] s) :=
  issue_append [w] ws s

theorem issue_halted (ws : List PlannedWrite) (s : State) : (issue ws s).halted = s.halted := rfl

theorem permits_congr {s t : State} (h : t.control.fences = s.control.fences) (ws : List PlannedWrite) :
    permits t ws ↔ permits s ws := by
  simp only [permits, writePermitted, State.fenceList, h]

theorem permits_append (s : State) (ws vs : List PlannedWrite) : permits s (ws ++ vs) ↔ permits s ws ∧ permits s vs := by
  simp only [permits, List.forall_mem_append]

theorem permits_cons (s : State) (w : PlannedWrite) (ws : List PlannedWrite) :
    permits s (w :: ws) ↔ permits s [w] ∧ permits s ws := permits_append s [w] ws

/-- A permitted write is its plan issued. -/
theorem writeHost_issue {s : State} (c : Cause) (w : PlannedWrite) (h : permits s [w]) :
    writeHost c w.addr (w.bytes s.out.length) s = issue [w] s := by
  rw [writeHost_permitted s c _ _ (h w List.mem_cons_self _)]
  simp [emit, issue, issued]

/-- Effects that are planned writes, one after another. -/
theorem inOrder_issue {fs : List (State → State)} {ws : List PlannedWrite} {s : State} (live : s.halted = false)
    (each : List.Forall₂ (fun f w => ∀ t, permits t [w] → f t = issue [w] t) fs ws) (h : permits s ws)
    (gs : List (State → State)) : inOrder (fs ++ gs) s = inOrder gs (issue ws s) := by
  induction each generalizing s with
  | nil => rw [issue_nil, List.nil_append]
  | @cons f w fs ws first _ ih =>
    obtain ⟨one, rest⟩ := (permits_cons s w ws).1 h
    have done : f s = issue [w] s := first s one
    rw [List.cons_append, inOrder_step _ _ _ live, done, issue_cons w ws s]
    exact ih (s := issue [w] s) live rest

theorem writeField_plan (c : Cause) (a width value : Nat) (t : State) (h : permits t [fieldWrite a width value]) :
    writeField c a width value t = issue [fieldWrite a width value] t := writeHost_issue c (fieldWrite a width value) h

theorem writeHoldLink_plan (c : Cause) (a : Nat) (t : State) (h : permits t [holdWrite a]) :
    writeHoldLink c a t = issue [holdWrite a] t := writeHost_issue c (holdWrite a) h

theorem writeLinkTo_plan (c : Cause) (a target : Nat) (t : State) (h : permits t [linkWrite a target]) :
    writeLinkTo c a target t = issue [linkWrite a target] t := writeHost_issue c (linkWrite a target) h

theorem writeSlot_plan (c : Cause) (a : Nat) (bytes : List Byte) (t : State)
    (h : permits t [{ addr := a, bytes := fun _ => bytes }]) :
    writeHost c a bytes t = issue [{ addr := a, bytes := fun _ => bytes }] t :=
  writeHost_issue c { addr := a, bytes := fun _ => bytes } h

/-! ## The append onto a filled chain (R147) -/

theorem filledLinkWrite_first {s : State} {p : LaneId} (tail : s.lanes[p].filledTail = none) (record : Nat) :
    filledLinkWrite s p record = linkWrite (s.control.anchor.toNat + filledHeadOffset p) record := by
  have place : s.control.anchor.toNat + filledHeadOffset p = s.control.anchor.toNat + 0x108 + 32 * p.val := by
    rw [filledHeadOffset, laneEntryOffset]
    omega
  rw [place]
  simp only [filledLinkWrite, tail]

theorem filledLinkWrite_next {s : State} {p : LaneId} {a : Nat} (tail : s.lanes[p].filledTail = some a) (record : Nat) :
    filledLinkWrite s p record = linkWrite (a + filledLinkOffset) record := by
  simp only [filledLinkWrite, tail, filledLinkOffset]

theorem linkFilled_permitted {s : State} (p : LaneId) (record : Nat) (live : s.halted = false)
    (h : permits s [filledLinkWrite s p record]) :
    linkFilled p record s =
      let t := { issue [filledLinkWrite s p record] s with
        lanes := s.lanes.set p { s.lanes[p] with filledTail := some record } }
      if s.lanes[p].notify = true then raise .laneFilled t else t := by
  have rest (w : PlannedWrite) : inOrder
      [fun t => setLane p { t.lanes[p] with filledTail := some record } t,
        fun t => if t.lanes[p].notify then raise .laneFilled t else t] (issue [w] s) =
      let t := { issue [w] s with lanes := s.lanes.set p { s.lanes[p] with filledTail := some record } }
      if s.lanes[p].notify = true then raise .laneFilled t else t := by
    rw [inOrder_pair _ _ (show (issue [w] s).halted = false from live) live]
    simp [setLane, issue]
  unfold linkFilled
  rw [inOrder_step _ _ _ live]
  cases tail : s.lanes[p].filledTail with
  | none =>
    rw [filledLinkWrite_first tail] at h ⊢
    exact Eq.trans (congrArg _ (writeLinkTo_plan _ _ _ s h)) (rest _)
  | some a =>
    rw [filledLinkWrite_next tail] at h ⊢
    exact Eq.trans (congrArg _ (writeLinkTo_plan _ _ _ s h)) (rest _)

/-- A delivery record returned: its writes, the tail, and LANE_FILLED where its lane asks for it (R147). -/
theorem returnRecord_permitted {s : State} (p : LaneId) (record : Nat) (f : RecordFields) (live : s.halted = false)
    (h : permits s (recordWrites s p record f)) :
    returnRecord p record f s =
      let t := { issue (recordWrites s p record f) s with
        lanes := s.lanes.set p { s.lanes[p] with filledTail := some record } }
      if s.lanes[p].notify = true then raise .laneFilled t else t := by
  have plan : recordWrites s p record f = [fieldWrite (record + 0x28) 1 f.status.code, fieldWrite (record + 0x29) 1 p.val,
      fieldWrite (record + 0x2A) 2 f.tag, fieldWrite (record + 0x2C) 1 f.frag, fieldWrite (record + 0x2E) 2 f.key,
      fieldWrite (record + 0x30) 4 f.first, fieldWrite (record + 0x34) 2 f.count, holdWrite (record + 0x20)] ++
      [filledLinkWrite s p record] := rfl
  rw [plan] at h ⊢
  obtain ⟨fields, link⟩ := (permits_append s _ _).1 h
  have written := inOrder_issue (fs := [writeField .fenceBlank (record + 0x28) 1 f.status.code,
    writeField .fenceBlank (record + 0x29) 1 p.val, writeField .fenceBlank (record + 0x2A) 2 f.tag,
    writeField .fenceBlank (record + 0x2C) 1 f.frag, writeField .fenceBlank (record + 0x2E) 2 f.key,
    writeField .fenceBlank (record + 0x30) 4 f.first, writeField .fenceBlank (record + 0x34) 2 f.count,
    writeHoldLink .fenceBlank (record + filledLinkOffset)]) live
    (.cons (writeField_plan _ _ _ _) <| .cons (writeField_plan _ _ _ _) <| .cons (writeField_plan _ _ _ _) <|
      .cons (writeField_plan _ _ _ _) <| .cons (writeField_plan _ _ _ _) <| .cons (writeField_plan _ _ _ _) <|
      .cons (writeField_plan _ _ _ _) <| .cons (writeHoldLink_plan _ _) .nil) fields [linkFilled p record]
  refine Eq.trans written ?_
  rw [inOrder_one _ (by exact live), issue_append]
  exact linkFilled_permitted p record live ((permits_congr rfl _).1 link)

/-! ## The append onto the finished chain (R49) -/

theorem finishedLinkWrite_first {s : State} (tail : s.finishedTail = none) (order : Nat) :
    finishedLinkWrite s order = linkWrite (s.control.anchor.toNat + finishedHeadOffset) order := by
  simp only [finishedLinkWrite, tail, finishedHeadOffset]

theorem finishedLinkWrite_next {s : State} {a : Nat} (tail : s.finishedTail = some a) (order : Nat) :
    finishedLinkWrite s order = linkWrite (a + finishedLinkOffset) order := by
  simp only [finishedLinkWrite, tail, finishedLinkOffset]

theorem linkFinished_permitted {s : State} (order : Nat) (live : s.halted = false)
    (h : permits s [finishedLinkWrite s order]) :
    linkFinished order s = { issue [finishedLinkWrite s order] s with finishedTail := some order } := by
  unfold linkFinished
  rw [inOrder_step _ _ _ live]
  cases tail : s.finishedTail with
  | none =>
    rw [finishedLinkWrite_first tail] at h ⊢
    exact Eq.trans (congrArg _ (writeLinkTo_plan _ _ _ s h)) (inOrder_one _ live)
  | some a =>
    rw [finishedLinkWrite_next tail] at h ⊢
    exact Eq.trans (congrArg _ (writeLinkTo_plan _ _ _ s h)) (inOrder_one _ live)

/-- The writes of an order's result, in the order of their offsets (R49; log 13). -/
def resultWrites (order : Nat) (r : OrderResult) : List PlannedWrite :=
  [fieldWrite (order + 0x089) 1 r.outcome.code, fieldWrite (order + 0x08A) 1 r.detail.code,
    fieldWrite (order + 0x08C) 4 r.front, fieldWrite (order + 0x090) 1 r.basesSolved,
    fieldWrite (order + 0x091) 1 r.demotions, fieldWrite (order + 0x092) 2 r.notesAccepted] ++
  r.slots.mapIdx (fun i bytes => { addr := order + 0x0A0 + 8 * i, bytes := fun _ => bytes })

theorem forall₂_slots (slots : List (List Byte)) (place : Nat → Nat) :
    List.Forall₂ (fun (f : State → State) w => ∀ t, permits t [w] → f t = issue [w] t)
      (slots.mapIdx fun i bytes => writeHost .fenceOrder (place i) bytes)
      (slots.mapIdx fun i bytes => { addr := place i, bytes := fun _ => bytes }) := by
  induction slots generalizing place with
  | nil => exact .nil
  | cons bytes slots ih =>
    rw [List.mapIdx_cons, List.mapIdx_cons]
    exact .cons (writeSlot_plan _ _ _) (ih fun i => place (i + 1))

theorem writeResult_permitted {s : State} (order : Nat) (r : OrderResult) (live : s.halted = false)
    (h : permits s (resultWrites order r)) : writeResult order r s = issue (resultWrites order r) s := by
  have each := List.rel_append (.cons (writeField_plan .fenceOrder (order + 0x089) 1 r.outcome.code) <|
    .cons (writeField_plan .fenceOrder (order + 0x08A) 1 r.detail.code) <|
    .cons (writeField_plan .fenceOrder (order + 0x08C) 4 r.front) <|
    .cons (writeField_plan .fenceOrder (order + 0x090) 1 r.basesSolved) <|
    .cons (writeField_plan .fenceOrder (order + 0x091) 1 r.demotions) <|
    .cons (writeField_plan .fenceOrder (order + 0x092) 2 r.notesAccepted) .nil)
    (forall₂_slots r.slots fun i => order + 0x0A0 + 8 * i)
  have written := inOrder_issue live each h []
  rw [List.append_nil] at written
  exact written

/-- A finish append: its writes, the tail, and ORDER_FINISHED where the order asks for it (R49). -/
theorem finishAppend_permitted {s : State} (order : Nat) (r : OrderResult) (notify : Bool) (live : s.halted = false)
    (h : permits s (finishWrites s order r)) :
    finishAppend order r notify s =
      let t := { issue (finishWrites s order r) s with finishedTail := some order }
      if notify = true then raise .orderFinished t else t := by
  have plan : finishWrites s order r = resultWrites order r ++
    ([fieldWrite (order + 0x088) 1 2, holdWrite (order + 0x080)] ++ [finishedLinkWrite s order]) := by
    simp [finishWrites, resultWrites]
  rw [plan] at h ⊢
  obtain ⟨results, rest⟩ := (permits_append s _ _).1 h
  obtain ⟨marks, link⟩ := (permits_append s _ _).1 rest
  have marked := inOrder_issue (s := issue (resultWrites order r) s)
    (fs := [writeField .fenceOrder (order + resultStateOffset) 1 resultFinished,
      writeHoldLink .fenceOrder (order + finishedLinkOffset)]) live
    (.cons (writeField_plan _ _ _ _) <| .cons (writeHoldLink_plan _ _) .nil) ((permits_congr rfl _).1 marks)
    [linkFinished order, fun t => if notify then raise .orderFinished t else t]
  have linked : linkFinished order (issue [fieldWrite (order + 0x088) 1 2, holdWrite (order + 0x080)]
      (issue (resultWrites order r) s)) = _ :=
    linkFinished_permitted order live ((permits_congr rfl _).1 link)
  unfold finishAppend
  rw [inOrder_step _ _ _ live, writeResult_permitted order r live results]
  refine Eq.trans marked ?_
  rw [inOrder_pair _ _ (by exact live) (by exact (congrArg State.halted linked).trans live)]
  simp only [issue_append]
  exact congrArg (fun t => if notify = true then raise .orderFinished t else t) linked

/-- Settles O24: each append is its planned writes, issued one after another, then the chain's new tail. -/
theorem appendsInOrder : Obligations.AppendsInOrder := by
  unfold Obligations.AppendsInOrder
  refine ⟨fun s p record f engine permitted => ?_, fun s order r notify engine permitted => ?_⟩
  · exact returnRecord_permitted p record f (not_halted engine) permitted
  · exact finishAppend_permitted order r notify (not_halted engine) permitted

end Sys2Proof.Proofs

/-! PROOFS. The takes (R23, R36, R40, R54, R141 to R143): what a completed record read does, whichever walker read it,
and the records that end at their take. -/

namespace Sys2Proof.Proofs

open Sys2Proof Sys2Proof.Machine

/-! ## What a take leaves as it was -/

theorem recordTaken_eq (s : State) : ∃ e d o n b, recordTaken s = { s with
    control := { s.control with engine := e, idleElapsed := false, idleDeadline := d }
    orderWalker := o, noteWalker := n, blankWalkers := b } := by
  unfold recordTaken
  split
  · exact ⟨_, _, _, _, _, rfl⟩
  · exact ⟨_, _, _, _, _, rfl⟩

section
variable (s : State)

@[simp] theorem recordTaken_fences : (recordTaken s).control.fences = s.control.fences := by
  obtain ⟨_, _, _, _, _, e⟩ := recordTaken_eq s; rw [e]

@[simp] theorem recordTaken_timers : (recordTaken s).control.timers = s.control.timers := by
  obtain ⟨_, _, _, _, _, e⟩ := recordTaken_eq s; rw [e]

@[simp] theorem recordTaken_profiles : (recordTaken s).control.profiles = s.control.profiles := by
  obtain ⟨_, _, _, _, _, e⟩ := recordTaken_eq s; rw [e]

@[simp] theorem recordTaken_anchor : (recordTaken s).control.anchor = s.control.anchor := by
  obtain ⟨_, _, _, _, _, e⟩ := recordTaken_eq s; rw [e]

@[simp] theorem recordTaken_contexts : (recordTaken s).contexts = s.contexts := by
  obtain ⟨_, _, _, _, _, e⟩ := recordTaken_eq s; rw [e]

@[simp] theorem recordTaken_pen : (recordTaken s).pen = s.pen := by
  obtain ⟨_, _, _, _, _, e⟩ := recordTaken_eq s; rw [e]

@[simp] theorem recordTaken_out : (recordTaken s).out = s.out := by
  obtain ⟨_, _, _, _, _, e⟩ := recordTaken_eq s; rw [e]

@[simp] theorem recordTaken_now : (recordTaken s).now = s.now := by
  obtain ⟨_, _, _, _, _, e⟩ := recordTaken_eq s; rw [e]

@[simp] theorem recordTaken_finishedTail : (recordTaken s).finishedTail = s.finishedTail := by
  obtain ⟨_, _, _, _, _, e⟩ := recordTaken_eq s; rw [e]

@[simp] theorem recordTaken_fenceList : (recordTaken s).fenceList = s.fenceList := by simp [State.fenceList]

@[simp] theorem recordTaken_permitted (a len : Nat) : writePermitted (recordTaken s) a len = writePermitted s a len := by
  simp [writePermitted]

end

theorem recordTaken_live {s : State} (walking : s.walking = true) : (recordTaken s).halted = false := by
  simp [State.halted, (recordTaken_awake walking).1]

theorem recordTaken_walking {s : State} (walking : s.walking = true) : (recordTaken s).walking = true := by
  simp [State.walking, (recordTaken_awake walking).1]

/-! ## A completed record read (R20, R23, R26) -/

/-- The unit that a walker's records go to. -/
def unitOf : WalkerId → Nat → List Byte → State → State
  | .order => intakeUnit
  | .note => noteUnit
  | .blank p => blankUnit p

theorem exec_take {w : WalkerId} {r : ReadResult} (sized : r.sized (recordLength w) = true) (s : State) :
    exec (takeCommand w r) s = .next (takeRecord w (unitOf w) r s) := by
  cases w <;> exact if_pos sized

theorem takes_reading {s : State} {w : WalkerId} {a : Nat} (h : takes s w a) :
    (s.walking && (s.walker w).state == .reading) = true := by
  obtain ⟨walking, reading, -⟩ := h
  simp [walking, reading]

theorem exec_take_failed {s : State} {w : WalkerId} {a : Nat} (h : takes s w a) :
    exec (takeCommand w .failed) s = .next (halt .chainRead s) := by
  rw [exec_take rfl, takeRecord, if_pos (takes_reading h)]

/-- A record read's data, acted on by the link that the record begins with. -/
theorem takeRecord_data {s : State} {w : WalkerId} {a : Nat} (h : takes s w a) (unit : Nat → List Byte → State → State)
    (image : List Byte) :
    takeRecord w unit (.data image) s =
      if imageLink image = .malformed then halt .chainMalformed s
      else inOrder [recordTaken, unit a image, walkOn w a (imageLink image)] s := by
  have place : field image 0 8 = leNat (image.take 8) := rfl
  unfold takeRecord
  rw [if_pos (takes_reading h), h.2.2]
  unfold imageLink
  simp only [place]
  cases readLink (leNat (image.take 8)) <;> rfl

theorem sized_data {image : List Byte} {n : Nat} (size : image.length = n) : (ReadResult.data image).sized n = true := by
  simp [ReadResult.sized, size]

theorem exec_take_malformed {s : State} {w : WalkerId} {a : Nat} (h : takes s w a) {image : List Byte}
    (size : image.length = recordLength w) (malformed : imageLink image = .malformed) :
    exec (takeCommand w (.data image)) s = .next (halt .chainMalformed s) := by
  rw [exec_take (sized_data size), takeRecord_data h, if_pos malformed]

/-- A record with a good link is taken: its unit's work, and then the walker goes on (R23). -/
theorem exec_take_good {s : State} {w : WalkerId} {a : Nat} (h : takes s w a) {image : List Byte}
    (size : image.length = recordLength w) (good : imageLink image ≠ .malformed) :
    exec (takeCommand w (.data image)) s =
      .next (inOrder [unitOf w a image, walkOn w a (imageLink image)] (recordTaken s)) := by
  have live : s.halted = false := not_halted fun stopped => by simp [takes, State.walking, stopped] at h
  rw [exec_take (sized_data size), takeRecord_data h, if_neg good, inOrder_step _ _ _ live]

/-- A take whose unit's work leaves the engine going ends with the walker's step. -/
theorem exec_take_walkOn {s u : State} {w : WalkerId} {a : Nat} (h : takes s w a) {image : List Byte}
    (size : image.length = recordLength w) (good : imageLink image ≠ .malformed)
    (work : unitOf w a image (recordTaken s) = u) (live : u.halted = false) :
    exec (takeCommand w (.data image)) s = .next (walkOn w a (imageLink image) u) := by
  rw [exec_take_good h size good,
    inOrder_pair _ _ (recordTaken_live h.1) ((congrArg State.halted work).trans live), work]

/-- A take whose unit's work halts the engine ends there. -/
theorem exec_take_halt {s : State} {w : WalkerId} {a : Nat} (h : takes s w a) {image : List Byte} {c : Cause}
    (size : image.length = recordLength w) (good : imageLink image ≠ .malformed)
    (work : unitOf w a image (recordTaken s) = halt c (recordTaken s)) :
    exec (takeCommand w (.data image)) s = .next (halt c (recordTaken s)) := by
  rw [exec_take_good h size good, inOrder_step _ _ _ (recordTaken_live h.1), work, inOrder_halted _ _ ((halted_iff _).2 (halt_engine _ c))]

/-! ## Records outside the fences (R36, R54, R141) -/

theorem not_permitted_iff (s : State) (a len : Nat) : writePermitted s a len = false ↔ checkingOn s.fenceList = true ∧
    ∃ b, a ≤ b ∧ b < a + len ∧ ∀ v ∈ s.fenceList, ¬(v.enabled = true ∧ v.base.toNat ≤ b ∧ b < v.limit.toNat) := by
  rw [← Bool.not_eq_true, writePermitted_iff]
  simp only [covers_iff]
  push Not
  rw [Bool.ne_false_iff]

theorem not_insideOne_iff (fences : List FenceWindow) (a len : Nat) : insideOne fences a len = false ↔
    ∀ v ∈ fences, ¬(v.enabled = true ∧ v.base.toNat ≤ a ∧ a + len ≤ v.limit.toNat) := by
  simp [insideOne, and_assoc]

/-- Settles O23: at the take a failed read, a malformed link and a record outside the fences each halt the engine. -/
theorem badRecordsHaltTheEngine : Obligations.BadRecordsHaltTheEngine := by
  unfold Obligations.BadRecordsHaltTheEngine
  refine ⟨fun s w a h => ⟨exec_take_failed h, fun image size even bad => ?_⟩, fun s w a image h size good checked => ?_⟩
  · exact exec_take_malformed h size (readLink_malformed even bad)
  · cases w with
    | order =>
      intro outside cause out
      refine exec_take_halt h size good ?_
      have refused : writePermitted s a 512 = false := (not_permitted_iff s a 512).2 ⟨checked, out⟩
      simp [unitOf, intakeUnit, refused, cause]
    | note =>
      intro outside cause out
      refine exec_take_halt h size good ?_
      have refused : insideOne s.fenceList a 64 = false := (not_insideOne_iff s.fenceList a 64).2 out
      simp [unitOf, noteUnit, checked, refused, cause]
    | blank p =>
      intro outside cause out
      refine exec_take_halt h size good ?_
      have refused : writePermitted s a 64 = false := (not_permitted_iff s a 64).2 ⟨checked, out⟩
      simp [unitOf, blankUnit, refused, cause]

/-! ## A refused order (R40) -/

theorem validateOrder_congr {s t : State} (profiles : t.control.profiles = s.control.profiles)
    (contexts : t.contexts = s.contexts) (o : RepairOrder) : validateOrder t o = validateOrder s o := by
  have named : namedProfile t o = namedProfile s o := by rw [namedProfile, profiles, namedProfile]
  have holder : holderOf t o.tag = holderOf s o.tag := by rw [holderOf, contexts, holderOf]
  rw [validateOrder, named, holder, validateOrder]

theorem resultSlot_none : resultSlot none 0 0 0 = [0xFF#8, 0#8, 0#8, 0#8, 0#8, 0#8, 0#8, 0#8] := by decide

theorem raise_halted (b : EventBit) (s : State) : (raise b s).halted = s.halted := by simp [State.halted]

theorem finishAppend_live {s : State} {order : Nat} {r : OrderResult} (notify : Bool) (live : s.halted = false)
    (h : permits s (finishWrites s order r)) : (finishAppend order r notify s).halted = false := by
  rw [finishAppend_permitted order r notify live h]
  dsimp only
  split
  · rw [raise_halted]
    exact live
  · exact live

theorem finishWrites_congr {s t : State} (tail : t.finishedTail = s.finishedTail) (anchor : t.control.anchor = s.control.anchor)
    (order : Nat) (r : OrderResult) : finishWrites t order r = finishWrites s order r := by
  simp only [finishWrites, finishedLinkWrite, tail, anchor]

/-- Settles O27: the intake unit's answer to an order that fails a check is its finish append, with zeros. -/
theorem refusedOrderIsAppendedAtOnce : Obligations.RefusedOrderIsAppendedAtOnce := by
  unfold Obligations.RefusedOrderIsAppendedAtOnce
  intro s a image d h size good inside o r refused permitted
  have writes : finishWrites (recordTaken s) a r = finishWrites s a r := finishWrites_congr (by simp) (by simp) a r
  have allowed : permits (recordTaken s) (finishWrites (recordTaken s) a r) := by
    rw [writes]
    exact (permits_congr (recordTaken_fences s) _).2 permitted
  refine exec_take_walkOn (w := .order) h size good ?_ (finishAppend_live o.notify (recordTaken_live h.1) allowed)
  have answer : validateOrder (recordTaken s) o = .error d :=
    (validateOrder_congr (recordTaken_profiles s) (recordTaken_contexts s) o).trans refused
  have result : refusalResult d (min o.lostCount 6) = r := by rw [refusalResult, resultSlot_none]
  simp only [unitOf, intakeUnit, recordTaken_permitted, inside, if_true, o, answer, refuseOrder] at *
  rw [result]

/-! ## A taken blank (R140 to R143) -/

theorem returnRecord_live {s : State} {p : LaneId} {record : Nat} {f : RecordFields} (live : s.halted = false)
    (h : permits s (recordWrites s p record f)) : (returnRecord p record f s).halted = false := by
  rw [returnRecord_permitted p record f live h]
  dsimp only
  split
  · rw [raise_halted]
    exact live
  · exact live

theorem recordWrites_congr {s t : State} (lanes : t.lanes = s.lanes) (anchor : t.control.anchor = s.control.anchor)
    (p : LaneId) (record : Nat) (f : RecordFields) : recordWrites t p record f = recordWrites s p record f := by
  simp only [recordWrites, filledLinkWrite, lanes, anchor]

theorem halted_of_engine_eq {s t : State} (h : t.control.engine = s.control.engine) : t.halted = s.halted := by
  simp only [State.halted, h]

/-- A blank is unusable by its addresses, by the top of the address space, or by the fences (R142). -/
theorem blankUnusable_iff (s : State) (b : Blank) : blankUnusable s b = true ↔
    b.buffer = 0 ∨ b.buffer % 64 ≠ 0 ∨ b.checkArea = 0 ∨ b.checkArea % 4 ≠ 0 ∨
      2 ^ 64 < b.buffer + b.capacity * 65536 ∨ 2 ^ 64 < b.checkArea + b.capacity * 4 ∨
      writePermitted s b.buffer (b.capacity * 65536) = false ∨ writePermitted s b.checkArea (b.capacity * 4) = false := by
  simp [blankUnusable, pastTop, Blank.bufferBytes, Blank.checkBytes, Config.addressSpace, Config.largestWindow, or_assoc]

theorem blankUnusable_congr {s t : State} (fences : t.control.fences = s.control.fences) (b : Blank) :
    blankUnusable t b = blankUnusable s b := by
  simp only [blankUnusable, writePermitted, State.fenceList, fences]

/-- Settles O52: the delivery unit returns an unusable blank FENCED and stocks the others. -/
theorem takenBlankIsStockedOrFenced : Obligations.TakenBlankIsStockedOrFenced := by
  unfold Obligations.TakenBlankIsStockedOrFenced
  intro s p a image h size good inside buffer area capacity unusable zeros
  have test : blankUnusable (recordTaken s) (readBlank a image) = true ↔ unusable := by
    rw [blankUnusable_congr (recordTaken_fences s)]
    exact blankUnusable_iff s (readBlank a image)
  have work : unitOf (.blank p) a image (recordTaken s) =
      if blankUnusable (recordTaken s) (readBlank a image) = true then returnRecord p a zeros (recordTaken s)
      else stockBlank p (readBlank a image) (recordTaken s) := by
    simp only [unitOf, blankUnit, recordTaken_permitted, inside, if_true]
    rfl
  refine ⟨fun bad permitted => ?_, fun usable => ?_⟩
  · have writes := recordWrites_congr (recordTaken_lanes s) (recordTaken_anchor s) p a zeros
    have allowed : permits (recordTaken s) (recordWrites (recordTaken s) p a zeros) := by
      rw [writes]
      exact (permits_congr (recordTaken_fences s) _).2 permitted
    rw [if_pos (test.2 bad)] at work
    exact exec_take_walkOn (w := .blank p) h size good work (returnRecord_live (recordTaken_live h.1) allowed)
  · rw [if_neg (test.not.2 usable)] at work
    refine exec_take_walkOn (w := .blank p) h size good (work.trans ?_) ?_
    · simp only [stockBlank, modifyStock, setLane, recordTaken_lanes]
      rfl
    · rw [halted_of_engine_eq (((blankAvailable_work p _).mono (L := .retry :: arbitrateKinds)).trans
        (arbitrate_work _).mono).engine_eq]
      exact recordTaken_live h.1

end Sys2Proof.Proofs

/-! PROOFS. Notes and the pen (R53, R55, R57 to R59): the outcome byte of a note, the note unit's dispatch, and the
pen's own rules. -/

namespace Sys2Proof.Proofs

open Sys2Proof Sys2Proof.Machine

/-! ## The outcome byte (R53, R72) -/

/-- A note's outcome byte gone out. -/
def noteByte (note code : Nat) (s : State) : State := { s with out := s.out ++ [byteWrite (note + 0x28) code] }

theorem splitRequest_byte (a : Nat) : splitRequest a 1 = [(a, 1)] := splitRequest_inside a 1 (by decide) (by omega)

theorem writeRequests_byte (a value : Nat) : writeRequests a (leBytes 1 value) = [byteWrite a value] := by
  have bytes : leBytes 1 value = [BitVec.ofNat 8 value] := rfl
  simp [writeRequests, bytes, splitRequest_byte, byteWrite, slice]

/-- A one-byte field that the fences permit. -/
theorem writeField_byte {s : State} (c : Cause) (a value : Nat) (h : writePermitted s a 1 = true) :
    writeField c a 1 value s = { s with out := s.out ++ [byteWrite a value] } := by
  rw [writeField, writeHost_permitted s c a (leBytes 1 value) h, writeRequests_byte]
  rfl

theorem writeNoteOutcome_permitted {s : State} (note : Nat) (o : NoteOutcome) (live : s.halted = false)
    (h : writePermitted s (note + 0x28) 1 = true) :
    writeNoteOutcome note o s =
      if o.isDrop then raise .noteDropped (noteByte note o.code s) else noteByte note o.code s := by
  have written : writeField .fenceNote (note + noteOutcomeOffset) 1 o.code s = noteByte note o.code s :=
    writeField_byte _ _ _ h
  rw [writeNoteOutcome, inOrder_pair _ _ live ((congrArg State.halted written).trans live), written]

theorem noteByte_recordTaken (note code : Nat) (s : State) :
    noteByte note code (recordTaken s) = { recordTaken s with out := s.out ++ [byteWrite (note + 0x28) code] } := by
  rw [noteByte, recordTaken_out]

theorem dropNote_live {s : State} (note code : Nat) (live : s.halted = false) :
    (raise .noteDropped (noteByte note code s)).halted = false := by
  rw [raise_halted]
  exact live

/-! ## The dispatch (R54, R55) -/

theorem noteUnit_inside {s : State} {a : Nat}
    (h : checkingOn s.fenceList = false ∨ insideOne s.fenceList a 64 = true) (image : List Byte) :
    noteUnit a image (recordTaken s) = dispatchNote a (readNote image) (recordTaken s) := by
  unfold noteUnit
  rw [if_neg]
  rcases h with h | h <;> simp [h]

theorem holderOf_eq_none {s : State} {tag : Nat}
    (h : ∀ (c : CtxId) (x : Context), s.contexts[c] = some x → x.tag ≠ tag) : holderOf s tag = none := by
  refine List.find?_eq_none.2 fun c _ => ?_
  cases used : s.contexts[c] with
  | none => simp
  | some x => simpa [used] using h c x used

/-- The holder of a tag is the first context in use with that tag. -/
theorem holderOf_eq_some {s : State} {c : CtxId} {x : Context} (used : s.contexts[c] = some x)
    (first : ∀ (d : CtxId) (y : Context), d < c → s.contexts[d] = some y → y.tag ≠ x.tag) :
    holderOf s x.tag = some c := by
  refine find?_finRange_eq_some_iff.2 ⟨by simp [used], fun d before => ?_⟩
  cases other : s.contexts[d] with
  | none => rfl
  | some y => simpa [other] using first d y before other

theorem dispatchNote_bad {s : State} {n : Note} (a : Nat) (bad : n.kind = .bad) :
    dispatchNote a n s = writeNoteOutcome a .droppedFormat s := by rw [dispatchNote, if_pos bad]

theorem dispatchNote_unknown {s : State} {n : Note} (a : Nat) (good : n.kind ≠ .bad) (unknown : holderOf s n.tag = none) :
    dispatchNote a n s = enterPen a n s := by rw [dispatchNote, if_neg good, unknown]

theorem dispatchNote_known {s : State} {n : Note} {c : CtxId} (a : Nat) (good : n.kind ≠ .bad)
    (known : holderOf s n.tag = some c) :
    dispatchNote a n s = inOrder [applyNote c a n, fun t => if n.kind = .data then settleIfLanded c t else t,
      finishIfDue c, arbitrate] s := by rw [dispatchNote, if_neg good, known]

/-! ## The pen (R57, R58) -/

theorem writePermitted_congr {s t : State} (h : t.control.fences = s.control.fences) (a len : Nat) :
    writePermitted t a len = writePermitted s a len := by simp only [writePermitted, State.fenceList, h]

/-- A note joins a pen in which room has been made. -/
theorem enterPen_after {s u : State} {a : Nat} (n : Note) (live : s.halted = false) (room : makeRoom s = u)
    (going : u.halted = false) (permitted : writePermitted u (a + 0x28) 1 = true) :
    enterPen a n s = noteByte a 1 { u with
      pen := u.pen ++ [{ addr := a, note := n, deadline := u.now + u.control.timers.orphan }] } := by
  unfold enterPen
  rw [inOrder_step _ _ _ live, room, inOrder_pair _ _ going (by exact going),
    writeNoteOutcome_permitted a .pending (by exact going) (by exact permitted)]
  rfl

theorem makeRoom_of_room {s : State} (h : s.pen.length < 32) : makeRoom s = s := by
  rw [makeRoom, if_neg (by simpa [Config.penCapacity] using h)]

theorem makeRoom_of_full {s : State} {e : PenEntry} {es : List PenEntry} (full : 32 ≤ s.pen.length) (front : s.pen = e :: es)
    (live : s.halted = false) (h : writePermitted s (e.addr + 0x28) 1 = true) :
    makeRoom s = raise .noteDropped (noteByte e.addr 0x17 { s with pen := es }) := by
  have room : makeRoom s = writeNoteOutcome e.addr .droppedOrphan { s with pen := es } := by
    rw [makeRoom, if_pos (by exact full), front]
  rw [room, writeNoteOutcome_permitted e.addr .droppedOrphan (by exact live) (by exact h)]
  rfl

/-! ## The orphans (R59) -/

/-- An orphan written out of the pen. -/
theorem dropOrphan_permitted {s : State} (e : PenEntry) (live : s.halted = false)
    (h : writePermitted s (e.addr + 0x28) 1 = true) :
    dropOrphan e s = raise .noteDropped (noteByte e.addr 0x17 { s with pen := s.pen.erase e }) := by
  rw [dropOrphan, writeNoteOutcome_permitted e.addr .droppedOrphan (by exact live) (by exact h)]
  rfl

theorem raise_event (b : EventBit) (s : State) : ∃ ev os, raise b s = { s with events := ev, out := s.out ++ os } ∧
    os.filter Output.isWrite = [] ∧ ev.bits = s.events.bits ||| b.mask := by
  have bits := raise_bits s b
  obtain ⟨ev, e | e⟩ := raise_spec s b
  · exact ⟨ev, [], by rw [e, List.append_nil], rfl, by rw [← bits, e]⟩
  · exact ⟨ev, [.msi], e, rfl, by rw [← bits, e]⟩

/-- Entries written out of the pen one after another, with the fences off. -/
theorem dropOrphans_unfenced (l : List PenEntry) {s : State} (live : s.halted = false) (off : s.unfenced) :
    ∃ ev os, inOrder (l.map dropOrphan) s = { s with pen := s.pen.diff l, events := ev, out := s.out ++ os } ∧
      os.filter Output.isWrite = l.map (fun d => byteWrite (d.addr + 0x28) 0x17) ∧
      ev.bits = if l = [] then s.events.bits else s.events.bits ||| 8#8 := by
  induction l generalizing s with
  | nil => exact ⟨s.events, [], by simp [inOrder], rfl, rfl⟩
  | cons e l ih =>
    obtain ⟨ev, os, raised, silent, bits⟩ := raise_event .noteDropped (noteByte e.addr 0x17 { s with pen := s.pen.erase e })
    have dropped := (dropOrphan_permitted e live (Tests.writePermitted_of_unfenced off _ _)).trans raised
    obtain ⟨ev', os', rest, writes, bits'⟩ := ih (s := dropOrphan e s) (by rw [dropped]; exact live)
      (by rw [dropped]; exact off)
    refine ⟨ev', byteWrite (e.addr + 0x28) 0x17 :: (os ++ os'), ?_, ?_, ?_⟩
    · rw [List.map_cons, inOrder_step _ _ _ live, rest, dropped]
      simp [noteByte]
    · rw [List.map_cons, ← writes, List.filter_cons_of_pos rfl, List.filter_append, silent, List.nil_append]
    · rw [bits', dropped, if_neg (List.cons_ne_nil _ _)]
      have mask : ev.bits = s.events.bits ||| 8#8 := bits
      simp only [mask, BitVec.or_assoc, BitVec.or_self, ite_self]

/-- What is left when every entry that passes a test is taken off a list. -/
theorem diff_filter {α : Type} [BEq α] [LawfulBEq α] (p : α → Bool) (l : List α) :
    l.diff (l.filter p) = l.filter fun a => !p a := by
  induction l with
  | nil => rfl
  | cons a l ih =>
    by_cases h : p a = true
    · simp [h, ih]
    · rw [List.filter_cons_of_neg h, List.filter_cons_of_pos (by simpa using h), List.cons_diff_of_not_mem, ih]
      simp [h]

theorem newWrites_of_append {s t : State} {os : List Output} (h : t.out = s.out ++ os) :
    newWrites s t = os.filter Output.isWrite := by rw [newWrites, newOutputs_of_append h]

theorem exec_orphanExpiry {s : State} {pre post : List PenEntry} {e : PenEntry} (walking : s.walking = true)
    (pen : s.pen = pre ++ e :: post) :
    exec (.orphanExpiry pre.length) s = .next (enterDoze (expireOrphans { s with now := max s.now e.deadline })) := by
  have entry : s.pen[pre.length]? = some e := by simp [pen]
  change execOrphanExpiry pre.length s = _
  simp only [execOrphanExpiry, walking, entry]
  rfl

/-- Settles O28: the pen takes a note, gives its oldest up for one, and gives up its orphans, by the note unit's own
writes. -/
theorem penRules : Obligations.PenRules := by
  unfold Obligations.PenRules
  refine ⟨fun s a image h size good inside permitted => ?_, fun s pre post e engine pen => ?_⟩
  · intro n entry
    have live := recordTaken_live h.1
    have work := noteUnit_inside inside image
    have going (u : State) (result : dispatchNote a n (recordTaken s) = u) (still : u.halted = false) :
        exec (.noteTake (.data image)) s = .next (walkOn .note a (imageLink image) u) :=
      exec_take_walkOn (w := .note) h size good (work.trans result) still
    refine ⟨fun bad => ?_, fun kind unknown => ⟨fun room => ?_, fun e es front full allowed => ?_⟩⟩
    · have dropped : dispatchNote a n (recordTaken s) = raise .noteDropped (noteByte a 0x10 (recordTaken s)) := by
        rw [dispatchNote_bad a bad, writeNoteOutcome_permitted a _ live (by simpa using permitted)]
        rfl
      rw [going _ dropped (dropNote_live _ _ live), noteByte_recordTaken]
    · have entered := (dispatchNote_unknown a kind (holderOf_eq_none (by simpa using unknown))).trans
        (enterPen_after n live (makeRoom_of_room (by simpa using room)) live (by simpa using permitted))
      rw [going _ entered (by exact live)]
      simp [noteByte, entry]
    · have room := makeRoom_of_full (s := recordTaken s) (by simpa using full) (by simpa using front) live
        (by simpa using allowed)
      have entered := (dispatchNote_unknown a kind (holderOf_eq_none (by simpa using unknown))).trans
        (enterPen_after n live room (dropNote_live _ _ (by exact live))
          ((writePermitted_congr (s := s) (by simp [noteByte]) _ _).trans permitted))
      rw [going _ entered (by exact dropNote_live _ _ (by exact live))]
      simp only [noteByte, recordTaken_out]
      obtain ⟨ev, os, raised, -⟩ := raise_event .noteDropped
        { recordTaken s with pen := es, out := s.out ++ [byteWrite (e.addr + 0x28) 0x17] }
      rw [raised]
      simp [entry]
  · intro now
    have walking := (walking_iff s).2 engine
    have live : s.halted = false := not_halted fun stopped => by simp [stopped] at engine
    have run := exec_orphanExpiry walking pen
    have mine : e.deadline ≤ now := le_max_right _ _
    refine ⟨fun others permitted => ?_, fun off => ?_⟩
    · have late (d : PenEntry) (mem : d ∈ pre ++ post) : ¬d.deadline ≤ now := Nat.not_le.2 (others d mem)
      have alone : s.pen.filter (fun d => decide (d.deadline ≤ now)) = [e] := by
        have none (l : List PenEntry) (sub : ∀ d ∈ l, d ∈ pre ++ post) : l.filter (fun d => decide (d.deadline ≤ now)) = [] :=
          List.filter_eq_nil_iff.2 fun d mem => by simpa using late d (sub d mem)
        rw [pen, List.filter_append, none pre fun d => List.mem_append_left _, List.nil_append,
          List.filter_cons_of_pos (p := fun d : PenEntry => decide (d.deadline ≤ now)) (decide_eq_true mine), none post fun d => List.mem_append_right _]
      have first : e ∉ pre := fun mem => late e (List.mem_append_left _ mem) mine
      have erased : s.pen.erase e = pre ++ post := by rw [pen, List.erase_append_right _ first, List.erase_cons_head]
      rw [run, expireOrphans, alone, List.map_singleton, inOrder_one _ (by exact live),
        dropOrphan_permitted e (by exact live) (by exact permitted)]
      simp only [erased, noteByte]
      rfl
    · obtain ⟨ev, os, dropped, writes, bits⟩ := dropOrphans_unfenced
        (s.pen.filter fun d => decide (d.deadline ≤ now)) (s := { s with now := now }) live off
      refine ⟨_, run, ?_, ?_, ?_, ?_⟩ <;> rw [show expireOrphans { s with now := max s.now e.deadline } = _ from dropped]
      · exact (diff_filter _ _).trans (List.filter_congr fun d _ => by rw [← decide_not]; exact decide_eq_decide.2 Nat.not_le)
      · exact (newWrites_of_append rfl).trans writes
      · have some_due : s.pen.filter (fun d => decide (d.deadline ≤ now)) ≠ [] :=
          List.ne_nil_of_mem (List.mem_filter.2 ⟨by simp [pen], decide_eq_true mine⟩)
        rw [bits, if_neg some_due]

end Sys2Proof.Proofs

/-! PROOFS. What runs of acts leave unchanged, and the units' work with the fences off, where no write is refused. -/

namespace Sys2Proof.Proofs

open Sys2Proof Sys2Proof.Machine

-- In order: declarations that run `decide` side by side wait for each other, each on a thread of its own.
set_option Elab.async false

/-! ## Frames of acts -/

theorem Act.control_eq {k : Kind} {s t : State} (a : Act k s t)
    (hk : k ∉ [Kind.halt, .engine, .load, .lock, .anchor, .reset]) : t.control = s.control := by
  cases a with
  | halt | engine | load | lock | anchor | reset => exact absurd (by decide) hk
  | _ => rfl

theorem Work.control_eq {K : List Kind} {s t : State} (w : Work K s t)
    (hK : ∀ k ∈ K, k ∉ [Kind.halt, .engine, .load, .lock, .anchor, .reset] := by decide) : t.control = s.control :=
  w.same State.control fun k mem _ _ act => act.control_eq (hK k mem)

theorem Act.out_eq {k : Kind} {s t : State} (a : Act k s t) (hk : k ∉ [Kind.read, .write, .halt, .event, .reset]) :
    t.out = s.out := by
  cases a with
  | read | write | halt | event | reset => exact absurd (by decide) hk
  | _ => rfl

theorem Work.out_eq {K : List Kind} {s t : State} (w : Work K s t)
    (hK : ∀ k ∈ K, k ∉ [Kind.read, .write, .halt, .event, .reset] := by decide) : t.out = s.out :=
  w.same State.out fun k mem _ _ act => act.out_eq (hK k mem)

theorem Act.events_eq {k : Kind} {s t : State} (a : Act k s t) (hk : k ∉ [Kind.halt, .event, .reset]) :
    t.events = s.events := by
  cases a with
  | halt | event | reset => exact absurd (by decide) hk
  | _ => rfl

theorem Work.events_eq {K : List Kind} {s t : State} (w : Work K s t)
    (hK : ∀ k ∈ K, k ∉ [Kind.halt, .event, .reset] := by decide) : t.events = s.events :=
  w.same State.events fun k mem _ _ act => act.events_eq (hK k mem)

theorem Act.finishedTail_eq {k : Kind} {s t : State} (a : Act k s t) (hk : k ∉ [Kind.tails, .load, .reset]) :
    t.finishedTail = s.finishedTail := by
  cases a with
  | halt _ c => rcases halt_cases c s with ⟨_, e⟩ | ⟨_, ev, os, _, e⟩ <;> rw [e]
  | tails | load | reset => exact absurd (by decide) hk
  | _ => rfl

theorem Work.finishedTail_eq {K : List Kind} {s t : State} (w : Work K s t)
    (hK : ∀ k ∈ K, k ∉ [Kind.tails, .load, .reset] := by decide) : t.finishedTail = s.finishedTail :=
  w.same State.finishedTail fun k mem _ _ act => act.finishedTail_eq (hK k mem)

/-- The kinds that change a lane. -/
abbrev laneKinds : List Kind := [.marks, .unstock, .stock, .tails, .load, .reset]

theorem Act.lanes_eq {k : Kind} {s t : State} (a : Act k s t) (hk : k ∉ laneKinds) : t.lanes = s.lanes := by
  cases a with
  | halt _ c => rcases halt_cases c s with ⟨_, e⟩ | ⟨_, ev, os, _, e⟩ <;> rw [e]
  | marks | unstock | stock | tails | load | reset => exact absurd (by decide) hk
  | _ => rfl

theorem Work.lanes_eq {K : List Kind} {s t : State} (w : Work K s t) (hK : ∀ k ∈ K, k ∉ laneKinds := by decide) :
    t.lanes = s.lanes := w.same State.lanes fun k mem _ _ act => act.lanes_eq (hK k mem)

theorem Act.solver_eq {k : Kind} {s t : State} (a : Act k s t) (hk : k ∉ [Kind.queue, .solver, .reset]) :
    t.solve = s.solve ∧ t.solveQueue = s.solveQueue := by
  cases a with
  | halt _ c => rcases halt_cases c s with ⟨_, e⟩ | ⟨_, ev, os, _, e⟩ <;> rw [e] <;> exact ⟨rfl, rfl⟩
  | queue | solver | reset => exact absurd (by decide) hk
  | _ => exact ⟨rfl, rfl⟩

theorem Work.solver_eq {K : List Kind} {s t : State} (w : Work K s t)
    (hK : ∀ k ∈ K, k ∉ [Kind.queue, .solver, .reset] := by decide) :
    t.solve = s.solve ∧ t.solveQueue = s.solveQueue :=
  w.keeps (P := fun u => u.solve = s.solve ∧ u.solveQueue = s.solveQueue)
    (fun k mem _ _ act ⟨v, q⟩ => ⟨(act.solver_eq (hK k mem)).1.trans v, (act.solver_eq (hK k mem)).2.trans q⟩) ⟨rfl, rfl⟩

theorem Act.solve_eq {k : Kind} {s t : State} (a : Act k s t) (hk : k ∉ [Kind.solver, .reset]) : t.solve = s.solve := by
  cases a with
  | halt _ c => rcases halt_cases c s with ⟨_, e⟩ | ⟨_, ev, os, _, e⟩ <;> rw [e]
  | solver | reset => exact absurd (by decide) hk
  | _ => rfl

theorem Work.solve_eq {K : List Kind} {s t : State} (w : Work K s t)
    (hK : ∀ k ∈ K, k ∉ [Kind.solver, .reset] := by decide) : t.solve = s.solve :=
  w.same State.solve fun k mem _ _ act => act.solve_eq (hK k mem)

theorem Act.arbiter_eq {k : Kind} {s t : State} (a : Act k s t)
    (hk : k ∉ [Kind.ready, .join, .rejoin, .turn, .reset]) : t.arbiter = s.arbiter := by
  cases a with
  | halt _ c => rcases halt_cases c s with ⟨_, e⟩ | ⟨_, ev, os, _, e⟩ <;> rw [e]
  | ready | join | rejoin | turn | reset => exact absurd (by decide) hk
  | _ => rfl

theorem Work.arbiter_eq {K : List Kind} {s t : State} (w : Work K s t)
    (hK : ∀ k ∈ K, k ∉ [Kind.ready, .join, .rejoin, .turn, .reset] := by decide) : t.arbiter = s.arbiter :=
  w.same State.arbiter fun k mem _ _ act => act.arbiter_eq (hK k mem)

theorem Act.steering_eq {k : Kind} {s t : State} (a : Act k s t) (hk : k ∉ [Kind.wait, .retry, .lfsr, .load, .reset]) :
    t.steering = s.steering := by
  cases a with
  | halt _ c => rcases halt_cases c s with ⟨_, e⟩ | ⟨_, ev, os, _, e⟩ <;> rw [e]
  | wait | retry | lfsr | load | reset => exact absurd (by decide) hk
  | _ => rfl

theorem Work.steering_eq {K : List Kind} {s t : State} (w : Work K s t)
    (hK : ∀ k ∈ K, k ∉ [Kind.wait, .retry, .lfsr, .load, .reset] := by decide) : t.steering = s.steering :=
  w.same State.steering fun k mem _ _ act => act.steering_eq (hK k mem)

/-- A context that is FREE stays so but for an accepted order. -/
theorem Act.free_stays {k : Kind} {s t : State} (a : Act k s t) (hk : k ≠ .accept) (c : CtxId)
    (free : s.contexts[c] = none) : t.contexts[c] = none := by
  by_cases touched : k ∈ contextKinds
  · cases a with
    | edit _ d x y used tag =>
      by_cases e : c = d
      · subst e; exact absurd (free.symm.trans used) (by simp)
      · exact (setContext_other _ _ _ _ e).trans free
    | free _ d =>
      by_cases e : c = d
      · subst e; exact setContext_same _ _ _
      · exact (setContext_other _ _ _ _ e).trans free
    | reset => simp [resetBlocks, State.reset]
    | accept => exact absurd rfl hk
    | _ => exact absurd touched (by decide)
  · rw [a.contexts_eq touched]
    exact free

theorem Work.free_stays {K : List Kind} {s t : State} (w : Work K s t) (c : CtxId) (free : s.contexts[c] = none)
    (hK : .accept ∉ K := by decide) : t.contexts[c] = none :=
  w.keeps (P := fun u => u.contexts[c] = none) (fun k mem _ _ act => act.free_stays (fun e => hK (e ▸ mem)) c) free

/-! ## The fences off -/

/-- The fences are off and the engine is not HALTED, so nothing that is written halts it. -/
def Calm (s : State) : Prop := s.unfenced ∧ s.halted = false

theorem Calm.of_control {s t : State} (h : Calm s) (control : t.control = s.control) : Calm t := by
  refine ⟨?_, ?_⟩
  · have := h.1
    unfold State.unfenced State.fenceList at this ⊢
    rwa [control]
  · simpa [State.halted, control] using h.2

theorem Calm.permits {s : State} (h : Calm s) (ws : List PlannedWrite) : permits s ws := Tests.permits_of_unfenced h.1 ws

theorem calm_of_working {s : State} (off : s.unfenced)
    (h : s.control.engine = .running ∨ s.control.engine = .dozing ∨ s.control.engine = .stopping) : Calm s :=
  ⟨off, not_halted fun stopped => by simp [stopped] at h⟩

/-- Effects that leave the control unit as it was run through, in a calm state. -/
theorem inOrder_calm {fs : List (State → State)} {s : State} (h : Calm s)
    (each : ∀ f ∈ fs, ∀ t, Calm t → (f t).control = t.control) :
    inOrder fs s = fs.foldl (fun t f => f t) s ∧ (inOrder fs s).control = s.control := by
  induction fs generalizing s with
  | nil => exact ⟨rfl, rfl⟩
  | cons f fs ih =>
    have same := each f List.mem_cons_self s h
    obtain ⟨run, control⟩ := ih (s := f s) (h.of_control same) fun g mem => each g (List.mem_cons_of_mem _ mem)
    rw [inOrder_step _ _ _ h.2]
    exact ⟨run, control.trans same⟩

theorem writeNoteOutcome_calm {s : State} (note : Nat) (o : NoteOutcome) (h : Calm s) :
    writeNoteOutcome note o s = if o.isDrop then raise .noteDropped (noteByte note o.code s) else noteByte note o.code s :=
  writeNoteOutcome_permitted note o h.2 (Tests.writePermitted_of_unfenced h.1 _ _)

theorem writeNoteOutcome_control {s : State} (note : Nat) (o : NoteOutcome) (h : Calm s) :
    (writeNoteOutcome note o s).control = s.control := by
  rw [writeNoteOutcome_calm note o h]
  split
  · rw [raise_control]; rfl
  · rfl

theorem returnRecord_control {s : State} (p : LaneId) (record : Nat) (f : RecordFields) (h : Calm s) :
    (returnRecord p record f s).control = s.control := by
  rw [returnRecord_permitted p record f h.2 (h.permits _)]
  dsimp only
  split
  · rw [raise_control]; rfl
  · rfl

theorem finishAppend_control {s : State} (order : Nat) (r : OrderResult) (notify : Bool) (h : Calm s) :
    (finishAppend order r notify s).control = s.control := by
  rw [finishAppend_permitted order r notify h.2 (h.permits _)]
  dsimp only
  split
  · rw [raise_control]; rfl
  · rfl

theorem finishAppend_finishedTail {s : State} (order : Nat) (r : OrderResult) (notify : Bool) (h : Calm s) :
    (finishAppend order r notify s).finishedTail = some order := by
  rw [finishAppend_permitted order r notify h.2 (h.permits _)]
  dsimp only
  split
  · exact (raise_work _ _).finishedTail_eq
  · rfl

/-! ## A drain's end (R45, R46, R88) -/

theorem closeFragment_closed {s : State} {c : CtxId} {x : Context} {i : Nat} {e : LostEntry} (used : s.contexts[c] = some x)
    (entry : x.lost[i]? = some e) (status : DeliveryStatus) (unopened : e.openRecord = none) :
    closeFragment c i status s = s := by
  cases lane : e.lane <;> simp [closeFragment, used, entry, unopened, lane]

/-- An open record closed: the record returned, and the entry without it (R146). -/
theorem closeFragment_open {s : State} {c : CtxId} {x : Context} {i : Nat} {e : LostEntry} {p : LaneId} {r : OpenRecord}
    (h : Calm s) (used : s.contexts[c] = some x) (entry : x.lost[i]? = some e) (status : DeliveryStatus)
    (lane : e.lane = some p) (opened : e.openRecord = some r) :
    closeFragment c i status s =
      { returnRecord p r.blank.addr
          { status := status, tag := x.tag, frag := e.frag, key := e.resolvedKey.getD 0
            first := r.first, count := r.count } s with
        contexts := s.contexts.set c (some { x with lost := x.lost.set i { e with openRecord := none } }) } := by
  have returned := returnRecord_control p r.blank.addr
    { status := status, tag := x.tag, frag := e.frag, key := e.resolvedKey.getD 0, first := r.first, count := r.count } h
  have contexts := (returnRecord_work p r.blank.addr
    { status := status, tag := x.tag, frag := e.frag, key := e.resolvedKey.getD 0, first := r.first
      count := r.count } s).contexts_eq
  have closing : closeFragment c i status s = inOrder [returnRecord p r.blank.addr
      { status := status, tag := x.tag, frag := e.frag, key := e.resolvedKey.getD 0, first := r.first, count := r.count },
      modifyLost c i fun e => { e with openRecord := none }] s := by
    simp only [closeFragment, used, entry, lane, opened]
  rw [closing, inOrder_pair _ _ h.2 (h.of_control returned).2, modifyLost,
    modifyContext_some _ c _ x ((congrArg (fun v => v[c]) contexts).trans used)]
  have changed : x.lost.modify i (fun e => { e with openRecord := none }) = x.lost.set i { e with openRecord := none } := by
    rw [List.modify_eq_set_getElem?, entry]
    rfl
  rw [changed, setContext, contexts]

theorem closeFragment_control {s : State} (c : CtxId) (i : Nat) (status : DeliveryStatus) (h : Calm s) :
    (closeFragment c i status s).control = s.control := by
  cases used : s.contexts[c] with
  | none => simp [closeFragment, used]
  | some x =>
    cases entry : x.lost[i]? with
    | none => simp [closeFragment, used, entry]
    | some e =>
      cases opened : e.openRecord with
      | none => rw [closeFragment_closed used entry status opened]
      | some r =>
        cases lane : e.lane with
        | none => simp [closeFragment, used, entry, lane]
        | some p =>
          rw [closeFragment_open h used entry status lane opened]
          dsimp only
          exact returnRecord_control p _ _ h

/-- The open records of a context closed CLOSED_EARLY one after another (R46). -/
def closeAll (c : CtxId) (x : Context) (s : State) : State :=
  (List.range x.lost.length).foldl (fun u i => closeFragment c i .closedEarly u) s

theorem closeAll_work (c : CtxId) (x : Context) (s : State) : Work (.edit :: chainKinds) s (closeAll c x s) :=
  foldl_work (fun t i => closeFragment_work c i _ t) _ s

theorem inOrder_closes {s : State} (c : CtxId) (x : Context) (h : Calm s) :
    inOrder ((List.range x.lost.length).map fun i => closeFragment c i .closedEarly) s = closeAll c x s ∧
      (closeAll c x s).control = s.control := by
  have run := inOrder_calm (fs := (List.range x.lost.length).map fun i => closeFragment c i .closedEarly) h fun f mem t calm => by
    obtain ⟨i, _, rfl⟩ := List.mem_map.1 mem
    exact closeFragment_control c i _ calm
  have fold : ((List.range x.lost.length).map fun i => closeFragment c i .closedEarly).foldl (fun t f => f t) s =
      closeAll c x s := by rw [List.foldl_map]; rfl
  exact ⟨run.1.trans fold, by rw [← fold, ← run.1]; exact run.2⟩

theorem finishContext_calm {s : State} {c : CtxId} {x : Context} (h : Calm s) (used : s.contexts[c] = some x) :
    finishContext c s = freeContext c (finishAppend x.orderAddr x.result x.notify (closeAll c x s)) := by
  obtain ⟨closed, control⟩ := inOrder_closes c x h
  have calm := h.of_control control
  simp only [finishContext, used]
  rw [inOrder_append, closed, inOrder_pair _ _ calm.2 (calm.of_control (finishAppend_control _ _ _ calm)).2]

theorem freeContext_control (c : CtxId) (s : State) : (freeContext c s).control = s.control := (freeContext_work c s).control_eq

theorem finishContext_control {s : State} (c : CtxId) (h : Calm s) : (finishContext c s).control = s.control := by
  cases used : s.contexts[c] with
  | none => simp [finishContext, used]
  | some x =>
    have control := (inOrder_closes c x h).2
    rw [finishContext_calm h used, freeContext_control, finishAppend_control _ _ _ (h.of_control control), control]

theorem finishIfDue_control {s : State} (c : CtxId) (h : Calm s) : (finishIfDue c s).control = s.control := by
  unfold finishIfDue
  split
  · exact finishContext_control c h
  · rfl

theorem freeContext_free (c : CtxId) (s : State) : (freeContext c s).contexts[c] = none := by
  have released : Work [.marks, .retry] (setContext c none s) (freeContext c s) :=
    foldl_work (fun t p => releaseReservationsOn_work c t p) _ _
  rw [released.contexts_eq]
  exact setContext_same _ _ _

/-- After a drain's end the context is FREE and its order the finished chain's tail. -/
theorem finishContext_ends {s : State} {c : CtxId} {x : Context} (h : Calm s) (used : s.contexts[c] = some x) :
    (finishContext c s).contexts[c] = none ∧ (finishContext c s).finishedTail = some x.orderAddr := by
  rw [finishContext_calm h used]
  refine ⟨freeContext_free c _, ?_⟩
  rw [(freeContext_work c _).finishedTail_eq]
  exact finishAppend_finishedTail _ _ _ (h.of_control (inOrder_closes c x h).2)

end Sys2Proof.Proofs

/-! PROOFS. What ends an event keeps: the retries, the readiness of all contexts, the grant, the end of STOPPING and the
walkers' leave set event bits and clear none, and change no context but one in STEERING by more than its starvation
marks. -/

namespace Sys2Proof.Proofs

open Sys2Proof Sys2Proof.Machine

-- In order: declarations that run `decide` side by side wait for each other, each on a thread of its own.
set_option Elab.async false

/-! ## Event bits stay set -/

/-- Every event bit set in the one state is set in the other. -/
def BitsKept (s t : State) : Prop := ∀ i, s.events.bits.getLsbD i = true → t.events.bits.getLsbD i = true

section
variable {s t u : State}

theorem BitsKept.refl (s : State) : BitsKept s s := fun _ h => h

theorem BitsKept.trans (a : BitsKept s t) (b : BitsKept t u) : BitsKept s u := fun i h => b i (a i h)

theorem BitsKept.of_events (h : t.events = s.events) : BitsKept s t := fun _ set => h ▸ set

/-- What keeps the bits after acts that leave the event unit alone. -/
theorem BitsKept.after (b : BitsKept t u) (h : t.events = s.events) : BitsKept s u := (BitsKept.of_events h).trans b

theorem Work.bitsKept {K : List Kind} (w : Work K s t) (hK : ∀ k ∈ K, k ∉ [Kind.halt, .event, .reset] := by decide) :
    BitsKept s t := .of_events (w.events_eq hK)

theorem raise_bitsKept (b : EventBit) (s : State) : BitsKept s (raise b s) := fun i set => by
  rw [raise_bits, BitVec.getLsbD_or, set, Bool.true_or]

theorem raise_sets (b : EventBit) (s : State) : (raise b s).events.bits.getLsbD b.index = true := by
  rw [raise_bits, BitVec.getLsbD_or]
  cases b <;> simp [EventBit.mask, EventBit.index]

theorem halt_bitsKept (c : Cause) (s : State) : BitsKept s (halt c s) := by
  unfold halt
  split
  · exact .refl s
  · exact (raise_bitsKept _ _).after rfl

theorem writeHost_bitsKept (c : Cause) (a : Nat) (bytes : List Byte) (s : State) : BitsKept s (writeHost c a bytes s) := by
  rcases writeHost_spec s c a bytes with ⟨_, e⟩ | ⟨_, e⟩ <;> rw [e]
  · exact .of_events rfl
  · exact halt_bitsKept c s

theorem foldl_bitsKept {α : Type} {f : State → α → State} (h : ∀ t a, BitsKept t (f t a)) (l : List α) (s : State) :
    BitsKept s (l.foldl f s) := by
  induction l generalizing s with
  | nil => exact .refl s
  | cons a l ih => exact (h s a).trans (ih _)

theorem inOrder_bitsKept {fs : List (State → State)} (h : ∀ f ∈ fs, ∀ t, BitsKept t (f t)) (s : State) :
    BitsKept s (inOrder fs s) :=
  inOrder_keeps (P := BitsKept s) (fun f mem t kept => kept.trans (h f mem t)) (.refl s)

end

theorem linkFilled_bitsKept (p : LaneId) (record : Nat) (s : State) : BitsKept s (linkFilled p record s) := by
  refine inOrder_bitsKept (fun f mem t => ?_) s
  simp only [List.mem_cons, List.not_mem_nil, or_false] at mem
  rcases mem with rfl | rfl | rfl <;> dsimp only
  · split <;> exact writeHost_bitsKept _ _ _ t
  · exact .of_events rfl
  · split
    · exact raise_bitsKept _ t
    · exact .refl t

theorem returnRecord_bitsKept (p : LaneId) (record : Nat) (f : RecordFields) (s : State) :
    BitsKept s (returnRecord p record f s) := by
  refine inOrder_bitsKept (fun f mem t => ?_) s
  simp only [List.mem_cons, List.not_mem_nil, or_false] at mem
  rcases mem with rfl | rfl | rfl | rfl | rfl | rfl | rfl | rfl | rfl
  case inr.inr.inr.inr.inr.inr.inr.inr => exact linkFilled_bitsKept p record t
  all_goals exact writeHost_bitsKept _ _ _ t

theorem linkUnusedOn_bitsKept (p : LaneId) (s : State) : BitsKept s (linkUnusedOn p s) := by
  refine inOrder_bitsKept (fun f mem t => ?_) s
  obtain ⟨e, _, rfl⟩ := List.mem_map.1 mem
  refine inOrder_bitsKept (fun f mem t => ?_) t
  simp only [List.mem_cons, List.not_mem_nil, or_false] at mem
  rcases mem with rfl | rfl
  · exact .of_events rfl
  · exact returnRecord_bitsKept p _ _ t

theorem enterStopped_bitsKept (s : State) : BitsKept s (enterStopped s) := by
  unfold enterStopped
  split
  · exact (raise_bitsKept _ _).after rfl
  · exact .refl s

theorem concludeStop_bitsKept (s : State) : BitsKept s (concludeStop s) := by
  unfold concludeStop
  split
  · refine inOrder_bitsKept (fun f mem t => ?_) s
    rcases List.mem_append.1 mem with h | h
    · obtain ⟨p, _, rfl⟩ := List.mem_map.1 h
      exact linkUnusedOn_bitsKept p t
    · obtain rfl := List.mem_singleton.1 h
      exact enterStopped_bitsKept t
  · exact .refl s

theorem endEvent_bitsKept (s : State) : BitsKept s (endEvent s) :=
  ((concludeStop_bitsKept s).trans (giveLeave_work _).bitsKept).trans (enterDoze_work _).bitsKept

theorem markStarved_bitsKept (c : CtxId) (i : Nat) (s : State) : BitsKept s (markStarved c i s) := by
  unfold markStarved
  split
  · exact .refl s
  · split
    · exact .refl s
    · split
      · exact (modifyLost_work _ _ _ s).bitsKept.trans (raise_bitsKept _ _)
      · exact .refl s

theorem reevaluateOne_bitsKept (s : State) (c : CtxId) : BitsKept s (reevaluateOne s c) := by
  unfold reevaluateOne
  split
  · exact .refl s
  · split
    · exact .refl s
    · refine BitsKept.trans ?_ (foldl_bitsKept (fun t i => markStarved_bitsKept c i t) _ _)
      refine .of_events ?_
      split <;> split <;> rfl

theorem reevaluate_bitsKept (s : State) : BitsKept s (reevaluate s) := foldl_bitsKept reevaluateOne_bitsKept _ s

theorem waitSteering_bitsKept (c : CtxId) (s : State) : BitsKept s (waitSteering c s) := by
  unfold waitSteering
  dsimp only
  split
  · exact .of_events rfl
  · exact (raise_bitsKept _ _).after rfl

theorem leaveSteering_bitsKept (c : CtxId) (s : State) : BitsKept s (leaveSteering c s) := by
  unfold leaveSteering
  refine BitsKept.trans (t := { s with steering := { s.steering with waitList := s.steering.waitList.erase c } })
    (.of_events rfl) ?_
  dsimp only
  split
  · exact .refl _
  · split
    · exact (modifyContext_work c _ _).bitsKept.trans (enterQueue_work _ _).bitsKept
    · exact (enterActive_work _ _).bitsKept

theorem attemptSteering_bitsKept (c : CtxId) (s : State) : BitsKept s (attemptSteering c s) := by
  unfold attemptSteering
  split
  · exact .refl s
  · rename_i x _
    split
    · dsimp only
      refine BitsKept.trans (foldl_work (fun t i => assignFragment_work c t i) (List.range x.lost.length) s).bitsKept ?_
      split
      · exact waitSteering_bitsKept _ _
      · exact leaveSteering_bitsKept _ _
    · exact .refl s

theorem retryWaiting_bitsKept (s : State) : BitsKept s (retryWaiting s) :=
  (foldl_bitsKept (fun t c => attemptSteering_bitsKept c t) _ _).after rfl

theorem grantNext_bitsKept (s : State) : BitsKept s (grantNext s) := by
  unfold grantNext
  split
  · exact .refl s
  · split
    · exact .refl s
    · exact (grantTurn_work _ s).bitsKept.trans (reevaluate_bitsKept _)

theorem arbitrate_bitsKept (s : State) : BitsKept s (arbitrate s) :=
  ((retryWaiting_bitsKept s).trans (reevaluate_bitsKept _)).trans (grantNext_bitsKept _)

theorem walkOn_bitsKept (w : WalkerId) (record : Nat) (link : Link) (s : State) : BitsKept s (walkOn w record link s) := by
  cases link with
  | malformed => exact halt_bitsKept _ s
  | hold | next =>
    refine BitsKept.trans (.of_events ?_) (giveLeave_work _).bitsKept
    cases w <;> rfl

/-! ## Contexts keep what they are -/

/-- A lost entry but for its starvation mark. -/
def unmarked (e : LostEntry) : LostEntry := { e with starved := false }

/-- What a context keeps at the end of an event: its tag, front, roster and basis; outside STEERING all but starvation
marks; and in DRAINING everything. -/
structure ContextKept (x y : Context) : Prop where
  tag : y.tag = x.tag
  front : y.front = x.front
  roster : y.roster = x.roster
  basis : y.basis = x.basis
  marks : x.state ≠ .steering → y = { x with lost := y.lost } ∧ y.lost.map unmarked = x.lost.map unmarked
  draining : x.state = .draining → y = x

theorem ContextKept.refl (x : Context) : ContextKept x x := ⟨rfl, rfl, rfl, rfl, fun _ => ⟨rfl, rfl⟩, fun _ => rfl⟩

theorem ContextKept.state {x y : Context} (h : ContextKept x y) (steered : x.state ≠ .steering) : y.state = x.state := by
  rw [(h.marks steered).1]

theorem ContextKept.trans {x y z : Context} (a : ContextKept x y) (b : ContextKept y z) : ContextKept x z where
  tag := b.tag.trans a.tag
  front := b.front.trans a.front
  roster := b.roster.trans a.roster
  basis := b.basis.trans a.basis
  marks steered := by
    have still : y.state ≠ .steering := by rwa [a.state steered]
    obtain ⟨same, marks⟩ := a.marks steered
    obtain ⟨same', marks'⟩ := b.marks still
    exact ⟨by rw [same', same], marks'.trans marks⟩
  draining drained := by
    have same := a.draining drained
    exact (b.draining (by rwa [same])).trans same

/-- Every context is FREE in both states, or in use in both and kept. -/
def ContextsKept (s t : State) : Prop := ∀ c : CtxId, Option.Rel ContextKept s.contexts[c] t.contexts[c]

section
variable {s t u : State}

theorem ContextsKept.of_contexts (h : t.contexts = s.contexts) : ContextsKept s t := fun c => by
  rw [h]
  cases s.contexts[c] with
  | none => exact .none
  | some x => exact .some (.refl x)

theorem ContextsKept.refl (s : State) : ContextsKept s s := .of_contexts rfl

theorem ContextsKept.trans (a : ContextsKept s t) (b : ContextsKept t u) : ContextsKept s u := fun c => by
  have first := a c
  have second := b c
  generalize s.contexts[c] = x, t.contexts[c] = y, u.contexts[c] = z at first second ⊢
  cases first with
  | none => exact second
  | some kept =>
    obtain ⟨kept'⟩ := second
    exact .some (kept.trans kept')

/-- What keeps the contexts after acts that leave them alone. -/
theorem ContextsKept.after (b : ContextsKept t u) (h : t.contexts = s.contexts) : ContextsKept s u :=
  (ContextsKept.of_contexts h).trans b

theorem ContextsKept.some (h : ContextsKept s t) {c : CtxId} {x : Context} (used : s.contexts[c] = some x) :
    ∃ y, t.contexts[c] = Option.some y ∧ ContextKept x y := by
  have kept := h c
  rw [used] at kept
  cases after : t.contexts[c] with
  | none => rw [after] at kept; cases kept
  | some y =>
    rw [after] at kept
    obtain ⟨kept⟩ := kept
    exact ⟨y, rfl, kept⟩

theorem ContextsKept.drained (h : ContextsKept s t) {c : CtxId} {x : Context} (used : s.contexts[c] = Option.some x)
    (draining : x.state = .draining) : t.contexts[c] = Option.some x := by
  obtain ⟨y, after, kept⟩ := h.some used
  rw [after, kept.draining draining]

theorem Work.contextsKept {K : List Kind} (w : Work K s t) (hK : ∀ k ∈ K, k ∉ contextKinds := by decide) :
    ContextsKept s t := .of_contexts (w.contexts_eq hK)

theorem foldl_contextsKept {α : Type} {f : State → α → State} (h : ∀ t a, ContextsKept t (f t a)) (l : List α) (s : State) :
    ContextsKept s (l.foldl f s) := by
  induction l generalizing s with
  | nil => exact .refl s
  | cons a l ih => exact (h s a).trans (ih _)

theorem setContext_contextsKept {c : CtxId} {x y : Context} (used : s.contexts[c] = Option.some x) (kept : ContextKept x y) :
    ContextsKept s (setContext c (Option.some y) s) := fun d => by
  by_cases e : d = c
  · subst e
    rw [used, setContext_same]
    exact .some kept
  · rw [setContext_other _ _ _ _ e]
    exact ContextsKept.refl s d

end

theorem modify_map_of_comp {α β : Type} {f : α → α} {g : α → β} (h : ∀ a, g (f a) = g a) (i : Nat) (l : List α) :
    (l.modify i f).map g = l.map g := by
  induction l generalizing i with
  | nil => simp
  | cons a l ih =>
    cases i with
    | zero => simp [h]
    | succ i => simp [ih]

theorem markStarved_contextsKept (c : CtxId) (i : Nat) (s : State) : ContextsKept s (markStarved c i s) := by
  unfold markStarved
  split
  · exact .refl s
  · rename_i x used
    split
    · exact .refl s
    · rename_i e _
      split
      · rename_i starves
        have active : x.state = .active := by
          rw [Bool.and_eq_true] at starves
          have := starves.1
          unfold isStarved at this
          split at this
          · exact absurd this (by decide)
          · simp only [Bool.and_eq_true, beq_iff_eq] at this
            exact this.1.1.1.1
        refine ContextsKept.trans (t := modifyLost c i (fun e => { e with starved := true }) s) ?_
          (raise_work _ _).contextsKept
        rw [modifyLost, modifyContext_some _ _ _ _ used]
        refine setContext_contextsKept used ⟨rfl, rfl, rfl, rfl, fun _ => ⟨rfl, ?_⟩, fun drained => ?_⟩
        · exact modify_map_of_comp (f := fun e => { e with starved := true }) (g := unmarked) (fun _ => rfl) i x.lost
        · exact absurd (active.symm.trans drained) (by decide)
      · exact .refl s

theorem reevaluateOne_contextsKept (s : State) (c : CtxId) : ContextsKept s (reevaluateOne s c) := by
  unfold reevaluateOne
  split
  · exact .refl s
  · split
    · exact .refl s
    · refine ContextsKept.trans ?_ (foldl_contextsKept (fun t i => markStarved_contextsKept c i t) _ _)
      refine .of_contexts ?_
      split <;> split <;> rfl

theorem reevaluate_contextsKept (s : State) : ContextsKept s (reevaluate s) :=
  foldl_contextsKept reevaluateOne_contextsKept _ s

/-! ### A steering attempt changes its own context alone -/

/-- What a context keeps whatever its state: its tag, front, roster and basis. -/
def SameRanks (x y : Context) : Prop := y.tag = x.tag ∧ y.front = x.front ∧ y.roster = x.roster ∧ y.basis = x.basis

/-- The other contexts are as they were, and this one keeps its tag, front, roster and basis. -/
def Reworks (c : CtxId) (s t : State) : Prop :=
  (∀ d : CtxId, d ≠ c → t.contexts[d] = s.contexts[d]) ∧
  ∀ x, s.contexts[c] = some x → ∃ y, t.contexts[c] = some y ∧ SameRanks x y

section
variable {c : CtxId} {s t u : State}

theorem Reworks.of_contexts (h : t.contexts = s.contexts) : Reworks c s t :=
  ⟨fun d _ => by rw [h], fun x used => ⟨x, by rw [h]; exact used, rfl, rfl, rfl, rfl⟩⟩

theorem Reworks.trans (a : Reworks c s t) (b : Reworks c t u) : Reworks c s u := by
  refine ⟨fun d other => (b.1 d other).trans (a.1 d other), fun x used => ?_⟩
  obtain ⟨y, used', tag, front, roster, basis⟩ := a.2 x used
  obtain ⟨z, used'', tag', front', roster', basis'⟩ := b.2 y used'
  exact ⟨z, used'', tag'.trans tag, front'.trans front, roster'.trans roster, basis'.trans basis⟩

theorem modifyContext_reworks (f : Context → Context) (s : State)
    (same : ∀ x, SameRanks x (f x) := by exact fun _ => ⟨rfl, rfl, rfl, rfl⟩) : Reworks c s (modifyContext c f s) := by
  cases used : s.contexts[c] with
  | none => rw [modifyContext_none _ _ _ used]; exact .of_contexts rfl
  | some x =>
    rw [modifyContext_some _ _ _ _ used]
    refine ⟨fun d other => setContext_other _ _ _ _ other, fun y used' => ⟨f x, setContext_same _ _ _, ?_⟩⟩
    obtain rfl := Option.some.inj (used.symm.trans used')
    exact same x

theorem evalStraggler_sameRanks (x : Context) (now interval : Nat) (advanced : Bool) :
    SameRanks x (x.evalStraggler now interval advanced) := by
  unfold Context.evalStraggler
  split
  · split <;> exact ⟨rfl, rfl, rfl, rfl⟩
  · exact ⟨rfl, rfl, rfl, rfl⟩

theorem evaluateStraggler_reworks (advanced : Bool) (s : State) : Reworks c s (evaluateStraggler c advanced s) := by
  refine modifyContext_reworks _ s fun x => ?_
  split
  · exact evalStraggler_sameRanks x _ _ _
  · exact ⟨rfl, rfl, rfl, rfl⟩

theorem enterActive_reworks (s : State) : Reworks c s (enterActive c s) :=
  (modifyContext_reworks _ s).trans (evaluateStraggler_reworks _ _)

theorem assignFragment_reworks (s : State) (i : Nat) : Reworks c s (assignFragment c s i) := by
  unfold assignFragment
  split
  · exact .of_contexts rfl
  · split
    · exact .of_contexts rfl
    · split
      · exact .of_contexts rfl
      · exact (modifyContext_reworks _ s).trans (.of_contexts (reserveOn_work _ _ _ _).contexts_eq)

theorem leaveSteering_reworks (s : State) : Reworks c s (leaveSteering c s) := by
  unfold leaveSteering
  refine Reworks.trans (t := { s with steering := { s.steering with waitList := s.steering.waitList.erase c } })
    (.of_contexts rfl) ?_
  dsimp only
  split
  · exact .of_contexts rfl
  · split
    · exact (modifyContext_reworks _ _).trans (.of_contexts (enterQueue_work _ _).contexts_eq)
    · exact enterActive_reworks _

theorem waitSteering_contexts (c : CtxId) (s : State) : (waitSteering c s).contexts = s.contexts := by
  unfold waitSteering
  dsimp only
  split
  · rfl
  · exact (raise_work _ _).contexts_eq

/-- An attempt changes a context in STEERING alone. -/
theorem attemptSteering_contextsKept (c : CtxId) (s : State) : ContextsKept s (attemptSteering c s) := by
  unfold attemptSteering
  split
  · exact .refl s
  · rename_i x used
    split
    · rename_i steering
      dsimp only
      have assigned : Reworks c s ((List.range x.lost.length).foldl (assignFragment c) s) :=
        List.foldlRecOn _ _ (.of_contexts rfl) fun t kept i _ => kept.trans (assignFragment_reworks t i)
      have whole : Reworks c s (if fragmentWaits ((List.range x.lost.length).foldl (assignFragment c) s) c then
          waitSteering c ((List.range x.lost.length).foldl (assignFragment c) s)
          else leaveSteering c ((List.range x.lost.length).foldl (assignFragment c) s)) := by
        split
        · exact assigned.trans (.of_contexts (waitSteering_contexts c _))
        · exact assigned.trans (leaveSteering_reworks _)
      intro d
      by_cases e : d = c
      · subst e
        obtain ⟨y, after, tag, front, roster, basis⟩ := whole.2 x used
        rw [used, after]
        exact .some ⟨tag, front, roster, basis, fun out => absurd steering out,
          fun drained => absurd (steering.symm.trans drained) (by decide)⟩
      · rw [whole.1 d e]
        exact ContextsKept.refl s d
    · exact .refl s

end

theorem retryWaiting_contextsKept (s : State) : ContextsKept s (retryWaiting s) :=
  (foldl_contextsKept (fun t c => attemptSteering_contextsKept c t) _ _).after rfl

theorem grantNext_contextsKept (s : State) : ContextsKept s (grantNext s) := by
  unfold grantNext
  split
  · exact .refl s
  · split
    · exact .refl s
    · exact (grantTurn_work _ s).contextsKept.trans (reevaluate_contextsKept _)

theorem arbitrate_contextsKept (s : State) : ContextsKept s (arbitrate s) :=
  ((retryWaiting_contextsKept s).trans (reevaluate_contextsKept _)).trans (grantNext_contextsKept _)

theorem endEvent_contextsKept (s : State) : ContextsKept s (endEvent s) := (endEvent_work s).contextsKept

theorem walkOn_contextsKept (w : WalkerId) (record : Nat) (link : Link) (s : State) :
    ContextsKept s (walkOn w record link s) := (walkOn_work w record link s).contextsKept

end Sys2Proof.Proofs

/-! PROOFS. Notes for a context in use (R55, R56, R62, R64, R68, R69): DATA, WITHDRAW and CANCEL, and what follows each at
its event. -/

namespace Sys2Proof.Proofs

open Sys2Proof Sys2Proof.Machine

/-! ## A known tag (R55) -/

theorem finishIfDue_of_not_draining {s : State} {c : CtxId} {x : Context} (used : s.contexts[c] = some x)
    (live : x.state ≠ .draining) : finishIfDue c s = s := by
  rw [finishIfDue, if_neg]
  simp [drainDue, used, live]

theorem finishIfDue_of_inFlight {s : State} {c : CtxId} (busy : inFlight s c = true) : finishIfDue c s = s := by
  rw [finishIfDue, if_neg]
  unfold drainDue
  split
  · exact Bool.false_ne_true
  · simp [busy]

theorem finishIfDue_due {s : State} {c : CtxId} {x : Context} (used : s.contexts[c] = some x)
    (draining : x.state = .draining) (idle : inFlight s c = false) : finishIfDue c s = finishContext c s := by
  rw [finishIfDue, if_pos]
  simp [drainDue, used, draining, idle]

theorem arbitrate_halted (s : State) : (arbitrate s).halted = s.halted := halted_of_engine_eq (arbitrate_work s).engine_eq

/-- A note taken for the holder of its tag: it is applied, and the settle end, the drain's end, the retries, the readiness
and the grant follow before the walker goes on. -/
theorem exec_noteTake_known {s : State} {a : Nat} {image : List Byte} {c : CtxId} {x : Context} {u v : State}
    (h : takes s .note a) (size : image.length = 64) (good : imageLink image ≠ .malformed)
    (inside : checkingOn s.fenceList = false ∨ insideOne s.fenceList a 64 = true) (used : s.contexts[c] = some x)
    (first : ∀ (d : CtxId) (y : Context), d < c → s.contexts[d] = some y → y.tag ≠ x.tag)
    (kind : (readNote image).kind ≠ .bad) (tag : (readNote image).tag = x.tag)
    (applied : applyNote c a (readNote image) (recordTaken s) = u) (live : u.halted = false)
    (ended : finishIfDue c (if (readNote image).kind = .data then settleIfLanded c u else u) = v)
    (still : v.halted = false) :
    exec (.noteTake (.data image)) s = .next (walkOn .note a (imageLink image) (arbitrate v)) := by
  have holder : holderOf (recordTaken s) (readNote image).tag = some c := by
    rw [tag]
    exact holderOf_eq_some (by simpa using used) (by simpa using first)
  have settled : (if (readNote image).kind = .data then settleIfLanded c u else u).halted = false := by
    split
    · rw [halted_of_engine_eq (settleIfLanded_work c u).engine_eq]
      exact live
    · exact live
  have started := recordTaken_live h.1
  have work : dispatchNote a (readNote image) (recordTaken s) = arbitrate v := by
    rw [dispatchNote_known a kind holder, inOrder_step _ _ _ started, applied, inOrder_step _ _ _ live,
      inOrder_pair _ _ settled ((congrArg State.halted ended).trans still), ended]
  exact exec_take_walkOn (w := .note) h size good ((noteUnit_inside inside image).trans work)
    ((arbitrate_halted v).trans still)

theorem applyNote_live {s : State} {c : CtxId} {x : Context} (a : Nat) (n : Note) (used : s.contexts[c] = some x)
    (live : x.state ≠ .draining) : applyNote c a n s = match n.kind with
      | .data => applyData c a n s
      | .withdraw => applyWithdraw c a n s
      | .cancel => applyCancel c a s
      | .bad => writeNoteOutcome a .droppedFormat s := by
  simp only [applyNote, used, if_neg live] <;> rfl

/-! ## DATA (R62, R64, R82) -/

theorem settleIfLanded_live {s : State} {c : CtxId} {x : Context} (used : s.contexts[c] = some x)
    (live : x.state ≠ .draining) : ∃ y, (settleIfLanded c s).contexts[c] = some y ∧ y.state ≠ .draining := by
  simp only [settleIfLanded, used]
  split
  · refine ⟨x.endSettle, ?_, by simp [Context.endSettle]⟩
    change (enterQueue c (modifyContext c Context.endSettle s)).contexts[c] = _
    rw [(enterQueue_work c _).contexts_eq, modifyContext_some _ _ _ _ used, setContext_same]
  · exact ⟨x, used, live⟩

theorem dataCheck_isDrop {x : Context} {n : Note} {o : NoteOutcome} (h : dataCheck x n = some o) : o.isDrop = true := by
  unfold dataCheck at h
  split at h
  · cases h; rfl
  · repeat' split at h
    all_goals cases h
    all_goals rfl

/-- The settle end leaves a live context to the drain's end, which then does nothing. -/
theorem finishIfDue_settleIfLanded {s : State} {c : CtxId} {x : Context} (used : s.contexts[c] = some x)
    (live : x.state ≠ .draining) : finishIfDue c (settleIfLanded c s) = settleIfLanded c s := by
  obtain ⟨y, after, still⟩ := settleIfLanded_live used live
  exact finishIfDue_of_not_draining after still

theorem dropNote_contexts (note code : Nat) (s : State) : (raise .noteDropped (noteByte note code s)).contexts = s.contexts :=
  (raise_work _ _).contexts_eq

theorem evaluateStraggler_some {s : State} {c : CtxId} {x : Context} (advanced : Bool) (used : s.contexts[c] = some x) :
    ∃ y, (evaluateStraggler c advanced s).contexts[c] = some y ∧ y.state = x.state := by
  refine ⟨_, by rw [evaluateStraggler, modifyContext_some _ _ _ _ used, setContext_same], ?_⟩
  split
  · unfold Context.evalStraggler
    split
    · split <;> rfl
    · rfl
  · rfl

/-- Settles O30: a DATA note for a live context is dropped by its first failing check, or accepted. -/
theorem dataNoteForALiveContext : Obligations.DataNoteForALiveContext := by
  unfold Obligations.DataNoteForALiveContext
  intro s a image c x h size good inside permitted used first n kind tag live
  have started := recordTaken_live h.1
  have taken : (recordTaken s).contexts[c] = some x := by simpa using used
  have data : n.kind ≠ .bad := by rw [kind]; decide
  have allowed : writePermitted (recordTaken s) (a + 0x28) 1 = true := by simpa using permitted
  refine ⟨fun o failing => ⟨_, ?_, rfl⟩, fun passes => ?_⟩
  · have applied : applyNote c a n (recordTaken s) = raise .noteDropped (noteByte a o.code (recordTaken s)) := by
      rw [applyNote_live a n taken live, kind]
      simp only [applyData, taken, failing]
      rw [writeNoteOutcome_permitted a o started allowed, if_pos (dataCheck_isDrop failing)]
    have dropped := dropNote_live a o.code started
    have ended := finishIfDue_settleIfLanded ((congrArg (fun v => v[c]) (dropNote_contexts a o.code _)).trans taken) live
    rw [exec_noteTake_known h size good inside used first data tag applied dropped (by rw [if_pos kind]; exact ended)
      ((halted_of_engine_eq (settleIfLanded_work c _).engine_eq).trans dropped), noteByte_recordTaken]
  · have accepted : applyNote c a n (recordTaken s) =
        evaluateStraggler c false (noteByte a 2 (setContext c (some (x.acceptData n)) (recordTaken s))) := by
      rw [applyNote_live a n taken live, kind]
      simp only [applyData, taken, passes]
      rw [inOrder_step _ _ _ started, modifyContext_some _ _ _ _ taken, inOrder_step _ _ _ (by exact started),
        writeNoteOutcome_permitted a .accepted (by exact started) (by exact allowed)]
      exact inOrder_one _ (by exact started)
    have going : (evaluateStraggler c false (noteByte a 2 (setContext c (some (x.acceptData n)) (recordTaken s)))).halted =
        false := (halted_of_engine_eq (evaluateStraggler_work c false _).engine_eq).trans started
    obtain ⟨y, after, state⟩ := evaluateStraggler_some (s := noteByte a 2 (setContext c (some (x.acceptData n)) (recordTaken s)))
      false (setContext_same (recordTaken s) c (some (x.acceptData n)))
    have still : y.state ≠ .draining := by rw [state]; exact live
    rw [exec_noteTake_known h size good inside used first data tag accepted going
      (by rw [if_pos kind]; exact finishIfDue_settleIfLanded after still)
      ((halted_of_engine_eq (settleIfLanded_work c _).engine_eq).trans going)]
    simp only [noteByte, setContext, recordTaken_contexts, recordTaken_out]
    rfl

/-! ## WITHDRAW and CANCEL (R68, R69) -/

theorem inFlight_congr {s t : State} (solve : t.solve = s.solve) (combine : t.combine = s.combine) (c : CtxId) :
    inFlight t c = inFlight s c := by simp only [inFlight, solve, combine]

theorem recordTaken_calm {s : State} (walking : s.walking = true) (off : s.unfenced) : Calm (recordTaken s) := by
  refine ⟨?_, recordTaken_live walking⟩
  unfold State.unfenced at off ⊢
  rwa [recordTaken_fenceList]

theorem Calm.of_engine {s t : State} (h : Calm s) (fences : t.control.fences = s.control.fences)
    (engine : t.control.engine = s.control.engine) : Calm t := by
  refine ⟨?_, (halted_of_engine_eq engine).trans h.2⟩
  have off := h.1
  unfold State.unfenced State.fenceList at off ⊢
  rwa [fences]

theorem dropNote_calm {s : State} (note code : Nat) (h : Calm s) : Calm (raise .noteDropped (noteByte note code s)) :=
  h.of_control (raise_control _ _)

/-- A note of a live context that is dropped leaves it to the drain's end, which then does nothing. -/
theorem applyNote_withdraw {s : State} {c : CtxId} {x : Context} {n : Note} (a : Nat) (used : s.contexts[c] = some x)
    (live : x.state ≠ .draining) (kind : n.kind = .withdraw) : applyNote c a n s = match x.candidate n.frag with
      | none => writeNoteOutcome a .droppedNotCandidate s
      | some k =>
        if !k.usable then writeNoteOutcome a .droppedSourceDead s
        else inOrder [loseCandidates c [n.frag] .withdrawn, writeNoteOutcome a .applied, evaluateStraggler c false] s := by
  rw [applyNote_live a n used live, kind]
  simp only [applyWithdraw, used] <;> rfl

theorem withdrawNotes {s : State} {a : Nat} {image : List Byte} {c : CtxId} {x : Context} (h : takes s .note a)
    (size : image.length = 64) (good : imageLink image ≠ .malformed) (off : s.unfenced) (used : s.contexts[c] = some x)
    (first : ∀ (d : CtxId) (y : Context), d < c → s.contexts[d] = some y → y.tag ≠ x.tag)
    (kind : (readNote image).kind = .withdraw) (tag : (readNote image).tag = x.tag) (live : x.state ≠ .draining) :
    let n := readNote image
    ((∀ k ∈ x.roster, k.frag ≠ n.frag) → exec (.noteTake (.data image)) s =
       .next (walkOn .note a (imageLink image) (arbitrate (raise .noteDropped
         { recordTaken s with out := s.out ++ [byteWrite (a + 0x28) 0x11] })))) ∧
     (∀ k, x.roster.find? (fun j => j.frag == n.frag) = some k → k.state = .withdrawn ∨ k.state = .corrupt →
       exec (.noteTake (.data image)) s =
         .next (walkOn .note a (imageLink image) (arbitrate (raise .noteDropped
           { recordTaken s with out := s.out ++ [byteWrite (a + 0x28) 0x12] })))) ∧
     (∀ k, x.roster.find? (fun j => j.frag == n.frag) = some k → k.state = .awaited ∨ k.state = .landing →
       let u := loseCandidates c [n.frag] .withdrawn (recordTaken s)
       exec (.noteTake (.data image)) s = .next (walkOn .note a (imageLink image)
         (arbitrate (finishIfDue c
           (evaluateStraggler c false { u with out := s.out ++ [byteWrite (a + 0x28) 3] }))))) := by
  intro n
  have calm := recordTaken_calm h.1 off
  have taken : (recordTaken s).contexts[c] = some x := by simpa using used
  have good_kind : n.kind ≠ .bad := by rw [kind]; decide
  have other_kind : ¬n.kind = .data := by rw [kind]; decide
  have dropped (o : NoteOutcome) (drop : o.isDrop = true)
      (applied : applyNote c a n (recordTaken s) = writeNoteOutcome a o (recordTaken s)) :
      exec (.noteTake (.data image)) s = .next (walkOn .note a (imageLink image) (arbitrate (raise .noteDropped
        { recordTaken s with out := s.out ++ [byteWrite (a + 0x28) o.code] }))) := by
    rw [writeNoteOutcome_calm a o calm, if_pos drop] at applied
    have still := (dropNote_calm a o.code calm).2
    rw [exec_noteTake_known h size good (.inl off) used first good_kind tag applied still
      (by rw [if_neg other_kind]
          exact finishIfDue_of_not_draining ((congrArg (fun v => v[c]) (dropNote_contexts a o.code _)).trans taken) live)
      still, noteByte_recordTaken]
  have applied := applyNote_withdraw a taken live kind
  refine ⟨fun absent => ?_, fun k found dead => ?_, fun k found alive => ?_⟩
  · have none : x.candidate n.frag = none := List.find?_eq_none.2 fun k mem => by simpa using absent k mem
    rw [none] at applied
    exact dropped .droppedNotCandidate rfl applied
  · have some : x.candidate n.frag = some k := found
    have unusable : k.usable = false := by rcases dead with e | e <;> simp [Candidate.usable, e]
    rw [some] at applied
    refine dropped .droppedSourceDead rfl (applied.trans ?_)
    simp [unusable]
  · have some : x.candidate n.frag = some k := found
    have usable : k.usable = true := by rcases alive with e | e <;> simp [Candidate.usable, e]
    intro u
    have lost : Calm u := calm.of_control (loseCandidates_work c _ _ _).control_eq
    have out : u.out = s.out := (loseCandidates_work c _ _ _).out_eq.trans (recordTaken_out s)
    have result : applyNote c a n (recordTaken s) =
        evaluateStraggler c false { u with out := s.out ++ [byteWrite (a + 0x28) 3] } := by
      rw [applied, some]
      simp only [usable, Bool.not_true, Bool.false_eq_true, if_false]
      rw [inOrder_step _ _ _ calm.2, inOrder_pair _ _ lost.2 (lost.of_control (writeNoteOutcome_control a _ lost)).2,
        writeNoteOutcome_calm a _ lost, ← out]
      rfl
    have written : Calm (evaluateStraggler c false { u with out := s.out ++ [byteWrite (a + 0x28) 3] }) :=
      lost.of_control (evaluateStraggler_work c false _).control_eq
    exact exec_noteTake_known h size good (.inl off) used first good_kind tag result written.2
      (by rw [if_neg other_kind]) (written.of_control (finishIfDue_control c written)).2

/-- A context drained by a CANCEL (R69, R87). -/
def cancelledContext (x : Context) : Context := { x with
  state := .draining, outcome := .cancelled, detail := .none, cancelPending := true
  settleDeadline := none, stragglerDeadline := none, stragglerArmed := false }

/-- What follows a note at its event: it takes back no output, and leaves FREE contexts and the finished tail. -/
theorem afterNote_work (a : Nat) (image : List Byte) (v : State) :
    Work (arbitrateKinds ++ linkKinds) v (walkOn .note a (imageLink image) (arbitrate v)) :=
  (arbitrate_work v).mono.trans (walkOn_work _ _ _ _).mono

theorem afterNote_contextsKept (a : Nat) (image : List Byte) (v : State) :
    ContextsKept v (walkOn .note a (imageLink image) (arbitrate v)) :=
  (arbitrate_contextsKept v).trans (walkOn_contextsKept _ _ _ _)

theorem afterNote_bitsKept (a : Nat) (image : List Byte) (v : State) :
    BitsKept v (walkOn .note a (imageLink image) (arbitrate v)) :=
  (arbitrate_bitsKept v).trans (walkOn_bitsKept _ _ _ _)

theorem enterDraining_some {s : State} {c : CtxId} {x : Context} (o : OrderOutcome) (d : Detail)
    (used : s.contexts[c] = some x) (live : x.state ≠ .draining) :
    (enterDraining c o d s).contexts = s.contexts.set c (some { x with
      state := .draining, outcome := o, detail := d, settleDeadline := none, stragglerDeadline := none
      stragglerArmed := false }) := by
  rw [enterDraining_live s c o d x used live]

theorem applyNote_cancel {s : State} {c : CtxId} {x : Context} {n : Note} (a : Nat) (calm : Calm s)
    (used : s.contexts[c] = some x) (live : x.state ≠ .draining) (kind : n.kind = .cancel) :
    ∃ w, applyNote c a n s = w ∧ Calm w ∧ w.contexts[c] = some (cancelledContext x) ∧ w.out = s.out ++ [byteWrite (a + 0x28) 3] ∧
      inFlight w c = inFlight s c := by
  have marked : (modifyContext c (fun x => { x with cancelPending := true }) s).contexts[c] =
      some { x with cancelPending := true } := by rw [modifyContext_some _ _ _ _ used, setContext_same]
  have entered := enterDraining_some .cancelled .none marked live
  have work := (modifyContext_work c (fun x => { x with cancelPending := true }) s).mono (L := drainKinds).trans
    (enterDraining_work c .cancelled .none _)
  have drained := calm.of_control work.control_eq
  refine ⟨noteByte a 3 (enterDraining c .cancelled .none (modifyContext c (fun x => { x with cancelPending := true }) s)),
    ?_, drained.of_control rfl, ?_, ?_, inFlight_congr work.solve_eq work.combine_eq c⟩
  · rw [applyNote_live a n used live, kind]
    simp only [applyCancel]
    rw [inOrder_step _ _ _ calm.2, inOrder_pair _ _ (calm.of_control (modifyContext_work c _ s).control_eq).2 drained.2,
      writeNoteOutcome_calm a _ drained]
    rfl
  · change (enterDraining c .cancelled .none _).contexts[c] = _
    rw [entered]
    simp [cancelledContext]
  · change (enterDraining c .cancelled .none _).out ++ _ = _
    rw [work.out_eq]

/-- Settles O32: each WITHDRAW and CANCEL by the note unit's own writes, and a note for a draining context dropped. -/
theorem withdrawAndCancelNotes : Obligations.WithdrawAndCancelNotes := by
  unfold Obligations.WithdrawAndCancelNotes
  refine ⟨fun s a image c x h size good off used first kind tag live =>
    withdrawNotes h size good off used first kind tag live, ?_⟩
  intro s a image c x h size good off used first n tag
  have calm := recordTaken_calm h.1 off
  have taken : (recordTaken s).contexts[c] = some x := by simpa using used
  have flight : inFlight (recordTaken s) c = inFlight s c :=
    inFlight_congr (recordTaken_work s).solve_eq (recordTaken_work s).combine_eq c
  refine ⟨fun kind live => ?_, fun kind draining busy => ?_⟩
  · have good_kind : n.kind ≠ .bad := by rw [kind]; decide
    have other_kind : ¬n.kind = .data := by rw [kind]; decide
    obtain ⟨w, applied, settled, cancelled, out, same⟩ := applyNote_cancel a calm taken live kind
    have run := exec_noteTake_known h size good (.inl off) used first good_kind tag applied settled.2
      (by rw [if_neg other_kind]) (settled.of_control (finishIfDue_control c settled)).2
    refine ⟨_, run, ?_, fun idle => ?_, fun busy => ?_⟩
    · rw [← recordTaken_out s, ← out]
      exact ((finishIfDue_work c w).logKept.2.2.2).trans (afterNote_work a image _).logKept.2.2.2
    · rw [finishIfDue_due cancelled rfl (same.trans (flight.trans idle))]
      obtain ⟨free, tail⟩ := finishContext_ends settled cancelled
      exact ⟨(afterNote_work a image _).free_stays c free, (afterNote_work a image _).finishedTail_eq.trans tail⟩
    · rw [finishIfDue_of_inFlight (same.trans (flight.trans busy))]
      exact (afterNote_contextsKept a image w).drained cancelled rfl
  · have applied : applyNote c a n (recordTaken s) = raise .noteDropped (noteByte a 0x14 (recordTaken s)) := by
      simp only [applyNote, taken, draining, if_true]
      rw [writeNoteOutcome_calm a _ calm]
      rfl
    have contexts := (congrArg (fun v => v[c]) (dropNote_contexts a 0x14 (recordTaken s))).trans taken
    have unsettled : settleIfLanded c (raise .noteDropped (noteByte a 0x14 (recordTaken s))) =
        raise .noteDropped (noteByte a 0x14 (recordTaken s)) := by
      simp only [settleIfLanded, contexts, draining]
      exact if_neg fun h => CtxState.noConfusion h.1
    have still := (dropNote_calm a 0x14 calm).2
    have flight' : inFlight (raise .noteDropped (noteByte a 0x14 (recordTaken s))) c = inFlight s c :=
      (inFlight_congr (raise_work _ _).solve_eq (raise_work _ _).combine_eq c).trans flight
    have run := exec_noteTake_known h size good (.inl off) used first kind tag applied still
      (by rw [unsettled, ite_self]; exact finishIfDue_of_inFlight (flight'.trans busy)) still
    refine ⟨_, run, (afterNote_contextsKept a image _).drained contexts draining, ?_, ?_⟩
    · refine List.IsPrefix.trans ?_ (afterNote_work a image _).logKept.2.2.2
      have out := (raise_work .noteDropped (noteByte a 0x14 (recordTaken s))).logKept.2.2.2
      have shape : (noteByte a 0x14 (recordTaken s)).out = s.out ++ [byteWrite (a + 0x28) 0x14] := by
        rw [noteByte, recordTaken_out]
      rwa [shape] at out
    · exact afterNote_bitsKept a image _ 3 (raise_sets .noteDropped _)

end Sys2Proof.Proofs

/-! PROOFS. The ranking (R91), the draws of a resolution (R131, R132), the powers of field elements (R3) and the window
check (R11 to R13). -/

namespace Sys2Proof.Proofs

open Sys2Proof Sys2Proof.Machine

/-! ## The ranking (R91) -/

theorem keysAhead_total (as bs : List Nat) : keysAhead as bs = true ∨ keysAhead bs as = true := by
  induction as generalizing bs with
  | nil => exact .inl rfl
  | cons a as ih =>
    cases bs with
    | nil => exact .inr rfl
    | cons b bs =>
      simp only [keysAhead, Bool.or_eq_true, Bool.and_eq_true, decide_eq_true_eq, beq_iff_eq]
      rcases Nat.lt_trichotomy a b with lt | rfl | gt
      · exact .inl (.inl lt)
      · exact (ih bs).imp (fun h => .inr ⟨rfl, h⟩) fun h => .inr ⟨rfl, h⟩
      · exact .inr (.inl gt)

theorem keysAhead_trans {as bs cs : List Nat} (h : keysAhead as bs = true) (k : keysAhead bs cs = true) :
    keysAhead as cs = true := by
  induction as generalizing bs cs with
  | nil => rfl
  | cons a as ih =>
    cases bs with
    | nil => exact absurd h Bool.false_ne_true
    | cons b bs =>
      cases cs with
      | nil => exact absurd k Bool.false_ne_true
      | cons c cs =>
        simp only [keysAhead, Bool.or_eq_true, Bool.and_eq_true, decide_eq_true_eq, beq_iff_eq] at h k ⊢
        rcases h with lt | ⟨rfl, rest⟩
        · rcases k with lt' | ⟨rfl, -⟩
          · exact .inl (lt.trans lt')
          · exact .inl lt
        · exact k.imp id fun ⟨e, rest'⟩ => ⟨e, ih rest rest'⟩

theorem ranked_pairwise (front : Nat) (cs : List Candidate) :
    (ranked front cs).Pairwise fun a b => ranksAhead front a b = true := by
  have total : Std.Total fun a b : Candidate => ranksAhead front a b = true := ⟨fun _ _ => keysAhead_total _ _⟩
  have trans : IsTrans Candidate fun a b => ranksAhead front a b = true := ⟨fun _ _ _ => keysAhead_trans⟩
  exact List.pairwise_insertionSort _ cs

theorem ranked_perm (front : Nat) (cs : List Candidate) : (ranked front cs).Perm cs := List.perm_insertionSort _ cs

/-- Settles O33: the ranking is the insertion sort by the keys, and those compare as R91 says. -/
theorem rankingFollowsTheKeys : Obligations.RankingFollowsTheKeys := by
  unfold Obligations.RankingFollowsTheKeys
  intro front cs landing rest
  refine ⟨ranked_perm front cs, (ranked_pairwise front cs).imp fun {a b} ahead => ?_⟩
  have range (k : Candidate) : landing k = (k.rangeFor front).map Range.ordinal := by
    simp only [landing, Candidate.rangeFor, Range.holds, Bool.decide_and]
  have compare : ranksAhead front a b = keysAhead (rankKeys front a) (rankKeys front b) := rfl
  rw [range a, range b]
  rw [compare, rankKeys, rankKeys] at ahead
  cases ha : a.rangeFor front <;> cases hb : b.rangeFor front <;> rw [ha, hb] at ahead <;>
    simp only [keysAhead, Bool.or_eq_true, Bool.and_eq_true, decide_eq_true_eq, beq_iff_eq, Option.map_some,
      Option.map_none, rest] at ahead ⊢ <;> omega

/-! ## Draws (R131, R132) -/

theorem draw_accept {t : SteeringTable} {n : Nat} {v : BitVec 16} {p : LaneId}
    (h : t.lookup (drawnKey t (lfsrStep v)) = some { kind := .normal, lane := p }) :
    draw t (n + 1) v = (lfsrStep v, .resolved (drawnKey t (lfsrStep v)) p) := by
  simp only [draw, h]

theorem draw_discard {t : SteeringTable} {n : Nat} {v : BitVec 16}
    (h : ∀ p, t.lookup (drawnKey t (lfsrStep v)) ≠ some { kind := .normal, lane := p }) :
    draw t (n + 1) v = draw t n (lfsrStep v) := by
  rw [draw]
  split
  · rename_i p found
    exact absurd found (h p)
  · rfl

/-- Draws that are all discarded. -/
theorem draw_fails {t : SteeringTable} (n : Nat) {v : BitVec 16}
    (h : ∀ m < n, ∀ p, t.lookup (drawnKey t (lfsrStep^[m + 1] v)) ≠ some { kind := .normal, lane := p }) :
    draw t n v = (lfsrStep^[n] v, .failed .unresolved) := by
  induction n generalizing v with
  | zero => rfl
  | succ n ih =>
    rw [draw_discard (h 0 (Nat.succ_pos n)), ih fun m lt p => h (m + 1) (by omega) p]
    rfl

/-- The first draw that falls in a NORMAL interval is accepted. -/
theorem draw_resolves {t : SteeringTable} {n limit : Nat} {v : BitVec 16} {p : LaneId} (lt : n < limit)
    (accept : t.lookup (drawnKey t (lfsrStep^[n + 1] v)) = some { kind := .normal, lane := p })
    (h : ∀ m < n, ∀ q, t.lookup (drawnKey t (lfsrStep^[m + 1] v)) ≠ some { kind := .normal, lane := q }) :
    draw t limit v = (lfsrStep^[n + 1] v, .resolved (drawnKey t (lfsrStep^[n + 1] v)) p) := by
  induction n generalizing limit v with
  | zero =>
    obtain ⟨limit, rfl⟩ := Nat.exists_eq_add_of_lt lt
    rw [Nat.zero_add] at *
    exact draw_accept accept
  | succ n ih =>
    obtain ⟨limit, rfl⟩ := Nat.exists_eq_succ_of_ne_zero (by omega : limit ≠ 0)
    rw [draw_discard (h 0 (Nat.succ_pos n)), ih (by omega) accept fun m lt q => h (m + 1) (by omega) q]
    rfl

/-- Settles O43: a resolution by the interval of the key, and at most eight draws. -/
theorem resolutionDrawsAtMostEight : Obligations.ResolutionDrawsAtMostEight := by
  unfold Obligations.ResolutionDrawsAtMostEight
  rintro t v e ⟨kind, lane⟩ found key draws
  have drawn (h : draws) : resolveEntry t v e = drawFor t v := by
    rw [resolveEntry, found]
    rcases h with h | ⟨h, spread⟩
    · obtain rfl : kind = .spread := h
      rfl
    · obtain rfl : kind = .normal := h
      exact if_pos spread
  have limited (h : draws) (range : t.spreadRange ≠ 0) : resolveEntry t v e = draw t 8 v := by
    rw [drawn h, drawFor, if_neg range]
    rfl
  refine ⟨fun h => ?_, fun h direct => ?_, fun h zero => ?_, fun n p h range lt accept before => ?_, fun h range none => ?_⟩
  · obtain rfl : kind = .forbidden := h
    rw [resolveEntry, found]
  · obtain rfl : kind = .normal := h
    rw [resolveEntry, found]
    exact if_neg (by simp [direct])
  · rw [drawn h, drawFor, if_pos zero]
  · rw [limited h range]
    exact draw_resolves lt accept before
  · rw [limited h range]
    exact draw_fails 8 none

/-! ## Powers (R3) -/

@[simp] theorem residue_gfPow (a : Byte) (e : Nat) : residue (gfPow a e) = residue a ^ e := by
  induction e with
  | zero => simp [gfPow]
  | succ e ih => rw [gfPow, residue_gfMul, ih, pow_succ]

theorem gfPow_two (e : Nat) : gfPow 2#8 e = gfDouble^[e] 1#8 := by
  have two : (2#8 : Byte) = gfDouble 1#8 := by decide
  induction e with
  | zero => rfl
  | succ e ih => rw [gfPow, gfMul_comm, two, gfDouble_gfMul, one_gfMul, ← two, ih, Function.iterate_succ_apply']

theorem gfPow_two_order : gfPow 2#8 255 = 1#8 := by decide +kernel

theorem nodup_iterate_gfDouble : (List.iterate gfDouble 1#8 255).Nodup := by decide +kernel

theorem eq_of_iterate_eq {α : Type} {f : α → α} {a : α} {n e g : Nat} (nodup : (List.iterate f a n).Nodup) (he : e < n)
    (hg : g < n) (h : f^[e] a = f^[g] a) : e = g := by
  have place (i : Nat) (lt : i < n) : (List.iterate f a n)[i]'(by simpa using lt) = f^[i] a := by simp
  exact (nodup.getElem_inj_iff (hi := by simpa using he) (hj := by simpa using hg)).1
    ((place e he).trans (h.trans (place g hg).symm))

theorem gfPow_two_injective {e f : Nat} (he : e < 255) (hf : f < 255) (h : gfPow 2#8 e = gfPow 2#8 f) : e = f :=
  eq_of_iterate_eq nodup_iterate_gfDouble he hf (by rwa [gfPow_two, gfPow_two] at h)

/-- Every non-zero element has order dividing 255. -/
theorem residue_pow_order {a : Byte} (h : a ≠ 0#8) : residue a ^ 255 = 1 := by
  obtain ⟨e, -, rfl⟩ := exists_eq_iterate_gfDouble a h
  have order : residue 2#8 ^ 255 = 1 := by rw [← residue_gfPow, gfPow_two_order, residue_one]
  rw [← gfPow_two, residue_gfPow, ← pow_mul, mul_comm, pow_mul, order, one_pow]

theorem gfMul_gfInv {a : Byte} (h : a ≠ 0#8) : gfMul a (gfInv a) = 1#8 :=
  residue_injective (by rw [residue_gfMul, gfInv, residue_gfPow, ← pow_succ', residue_pow_order h, residue_one])

/-- Settles O54: the powers of 2 run through the non-zero elements, and a^254 is the inverse. -/
theorem powersAndInverses : Obligations.PowersAndInverses := by
  unfold Obligations.PowersAndInverses
  refine ⟨fun _ => rfl, fun _ _ => rfl, gfPow_two_order, fun a h => ?_, fun a e h => ?_,
    fun a h => ⟨gfMul_gfInv h, fun b one => ?_⟩, fun b h => ?_⟩
  · obtain ⟨e, lt, rfl⟩ := exists_eq_iterate_gfDouble a h
    exact ⟨e, lt, gfPow_two e, fun f lt' same => gfPow_two_injective lt' lt (same.trans (gfPow_two e).symm)⟩
  · refine residue_injective ?_
    rw [residue_gfPow, residue_gfPow]
    conv_lhs => rw [← Nat.div_add_mod e 255, pow_add, pow_mul, residue_pow_order h, one_pow, one_mul]
  · calc b = gfMul (gfMul (gfInv a) a) b := by rw [gfMul_comm (gfInv a), gfMul_gfInv h, one_gfMul]
      _ = gfInv a := by rw [gfMul_assoc, one, gfMul_comm, one_gfMul]
  · rw [zero_gfMul] at h
    exact absurd h (by decide)

/-! ## The window check (R11 to R13) -/

theorem gfMul_one (a : Byte) : gfMul a 1#8 = a := by rw [gfMul_comm, one_gfMul]

theorem gfMul_zero (a : Byte) : gfMul a 0#8 = 0#8 := by rw [gfMul_comm, zero_gfMul]

theorem gfSum_concat (l : List Byte) (x : Byte) : gfSum (l ++ [x]) = gfSum l ^^^ x := by simp [gfSum]

theorem gfMul_gfSum (g : Byte) (l : List Byte) : gfMul g (gfSum l) = gfSum (l.map (gfMul g)) := by
  induction l using List.reverseRecOn with
  | nil => exact gfMul_zero g
  | append_singleton l x ih => rw [gfSum_concat, gfMul_xor, ih, List.map_append, List.map_singleton, gfSum_concat]

theorem checkLane_concat (g : Byte) (l : List Byte) (x : Byte) :
    checkLane g (l ++ [x]) = gfMul (checkLane g l) g ^^^ x := by simp [checkLane]

/-- The Horner form is the weighted sum. -/
theorem checkLane_eq_sum (g : Byte) (l : List Byte) :
    checkLane g l = gfSum (l.mapIdx fun j x => gfMul (gfPow g (l.length - 1 - j)) x) := by
  induction l using List.reverseRecOn with
  | nil => rfl
  | append_singleton l x ih =>
    have last : gfMul (gfPow g ((l ++ [x]).length - 1 - l.length)) x = x := by simp [gfPow]
    have others : (l.mapIdx fun j y => gfMul (gfPow g ((l ++ [x]).length - 1 - j)) y) =
        (l.mapIdx fun j y => gfMul (gfPow g (l.length - 1 - j)) y).map (gfMul g) := by
      refine List.ext_getElem (by simp) fun j short _ => ?_
      have lt : j < l.length := by simpa using short
      have exponent : (l ++ [x]).length - 1 - j = (l.length - 1 - j) + 1 := by simp; omega
      rw [List.getElem_map, List.getElem_mapIdx, List.getElem_mapIdx, exponent, gfPow, gfMul_comm (gfPow g _) g, gfMul_assoc]
    rw [checkLane_concat, ih, List.mapIdx_concat, gfSum_concat, last, others, ← gfMul_gfSum, gfMul_comm]

theorem checkLane_zeros (g : Byte) (l : List Byte) (n : Nat) :
    checkLane g (l ++ List.replicate n 0#8) = gfMul (checkLane g l) (gfPow g n) := by
  induction n with
  | zero => simp [gfPow, gfMul_one]
  | succ n ih =>
    rw [List.replicate_succ', ← List.append_assoc, checkLane_concat, ih, gfPow, gfMul_assoc]
    exact BitVec.xor_zero

theorem checkLane_one (l : List Byte) : checkLane 1#8 l = gfSum l := by simp only [checkLane, gfSum, gfMul_one]

theorem gfPow_one (n : Nat) : gfPow 1#8 n = 1#8 := by
  induction n with
  | zero => rfl
  | succ n ih => rw [gfPow, ih, gfMul_one]

/-- Settles O55: lane by lane, Horner's form of the padded window is the weighted sum. -/
theorem checkIsTheWeightedSum : Obligations.CheckIsTheWeightedSum := by
  unfold Obligations.CheckIsTheWeightedSum
  intro S bytes fits window
  have size : window.length = S := by simp [window, padWindow]; omega
  have padded (g : Byte) : checkLane g window = gfMul (checkLane g bytes) (gfPow g (S - bytes.length)) :=
    checkLane_zeros g bytes _
  refine ⟨size, ?_, ?_, ?_⟩
  · refine List.map_congr_left fun g _ => ?_
    rw [checkLane_eq_sum, size]
  · change checkLane 1#8 window = gfSum bytes
    rw [padded, gfPow_one, gfMul_one, checkLane_one]
  · exact List.map_congr_left fun g _ => padded g

end Sys2Proof.Proofs

/-! PROOFS. The period of the LFSR (R130). Its step is linear over the two-element field, so an equation between iterates
holds of every value once it holds of the sixteen single bits, and far iterates are products of squares. -/

namespace Sys2Proof.Proofs

open Sys2Proof Sys2Proof.Machine

/-! ## Linear maps on 16 bits -/

/-- A map that takes exclusive ORs to exclusive ORs. -/
def Additive (f : BitVec 16 → BitVec 16) : Prop := ∀ a b, f (a ^^^ b) = f a ^^^ f b

/-- One bit of a value. -/
def bitAt (v : BitVec 16) (i : Nat) : BitVec 16 := if v.getLsbD i then 1#16 <<< i else 0

theorem eq_xor_bits (v : BitVec 16) : (List.range 16).foldl (fun acc i => acc ^^^ bitAt v i) 0 = v := by
  refine BitVec.eq_of_getLsbD_eq fun j hj => ?_
  have bit (i : Nat) (hi : i < 16) : (bitAt v i).getLsbD j = (decide (i = j) && v.getLsbD i) := by
    unfold bitAt
    cases v.getLsbD i
    · simp
    · interval_cases i <;> interval_cases j <;> rfl
  simp only [List.range_eq_range', List.range', List.foldl, BitVec.getLsbD_xor]
  simp (disch := omega) only [bit]
  interval_cases j <;> simp

theorem Additive.zero {f : BitVec 16 → BitVec 16} (h : Additive f) : f 0 = 0 := by
  have := h 0 0
  rw [BitVec.xor_self, BitVec.xor_self] at this
  exact this

theorem Additive.foldl {f : BitVec 16 → BitVec 16} (h : Additive f) (g : Nat → BitVec 16) (l : List Nat) (a : BitVec 16) :
    f (l.foldl (fun acc i => acc ^^^ g i) a) = l.foldl (fun acc i => acc ^^^ f (g i)) (f a) := by
  induction l generalizing a with
  | nil => rfl
  | cons i l ih => rw [List.foldl_cons, ih, h, List.foldl_cons]

theorem Additive.comp {f g : BitVec 16 → BitVec 16} (hf : Additive f) (hg : Additive g) : Additive (f ∘ g) := fun a b => by
  simp only [Function.comp, hg a b, hf (g a) (g b)]

theorem Additive.iterate {f : BitVec 16 → BitVec 16} (h : Additive f) (n : Nat) : Additive f^[n] := by
  induction n with
  | zero => exact fun _ _ => rfl
  | succ n ih => exact ih.comp h

/-- The images of the sixteen single bits. -/
def columns (f : BitVec 16 → BitVec 16) : List (BitVec 16) := (List.range 16).map fun i => f (1#16 <<< i)

/-- The linear map with these images of the single bits, at a value. -/
def applyColumns (cols : List (BitVec 16)) (v : BitVec 16) : BitVec 16 :=
  (List.range 16).foldl (fun acc i => acc ^^^ if v.getLsbD i then cols.getD i 0 else 0) 0

theorem applyColumns_columns {f : BitVec 16 → BitVec 16} (h : Additive f) (v : BitVec 16) :
    applyColumns (columns f) v = f v := by
  conv_rhs => rw [← eq_xor_bits v, h.foldl, h.zero]
  refine List.foldl_ext _ _ _ fun acc i mem => ?_
  have place : (columns f).getD i 0 = f (1#16 <<< i) := by
    rw [List.getD_eq_getElem _ _ (by simpa [columns] using mem)]
    simp [columns]
  rw [place, bitAt]
  split
  · rfl
  · rw [h.zero]

/-- Linear maps that agree on the single bits are equal. -/
theorem Additive.ext {f g : BitVec 16 → BitVec 16} (hf : Additive f) (hg : Additive g) (h : columns f = columns g)
    (v : BitVec 16) : f v = g v := by
  rw [← applyColumns_columns hf, h, applyColumns_columns hg]

/-! ## Far iterates -/

/-- The columns of a map's square. -/
def squareColumns (cols : List (BitVec 16)) : List (BitVec 16) := cols.map (applyColumns cols)

theorem squareColumns_columns {f : BitVec 16 → BitVec 16} (h : Additive f) : squareColumns (columns f) = columns (f ∘ f) := by
  rw [squareColumns, columns, List.map_map]
  exact List.map_congr_left fun i _ => applyColumns_columns h _

/-- A number by its binary digits, the least significant first. -/
def ofDigits : List Bool → Nat
  | [] => 0
  | b :: bs => (if b then 1 else 0) + 2 * ofDigits bs

/-- A linear map iterated as often as these digits say. -/
def jump : List (BitVec 16) → List Bool → BitVec 16 → BitVec 16
  | _, [], v => v
  | cols, b :: bs, v => jump (squareColumns cols) bs (if b then applyColumns cols v else v)

theorem jump_columns {f : BitVec 16 → BitVec 16} (h : Additive f) (bs : List Bool) (v : BitVec 16) :
    jump (columns f) bs v = f^[ofDigits bs] v := by
  induction bs generalizing f v with
  | nil => rfl
  | cons b bs ih =>
    have twice : (f ∘ f)^[ofDigits bs] = f^[2 * ofDigits bs] := (Function.iterate_mul f 2 _).symm
    rw [jump, squareColumns_columns h, ih (h.comp h), twice, ofDigits, applyColumns_columns h]
    cases b
    · simp
    · rw [if_pos rfl, if_pos rfl, Nat.add_comm, Function.iterate_add_apply, Function.iterate_one]

/-! ## The step of the LFSR -/

theorem lfsrStep_zero (v : BitVec 16) : (lfsrStep v).getLsbD 0 = lfsrFeedback v := by
  unfold lfsrStep
  cases lfsrFeedback v <;> simp

theorem lfsrStep_succ (v : BitVec 16) (i : Nat) (h : i < 15) : (lfsrStep v).getLsbD (i + 1) = v.getLsbD i := by
  unfold lfsrStep
  have shifted : (v <<< 1).getLsbD (i + 1) = v.getLsbD i := by
    rw [BitVec.getLsbD_shiftLeft, decide_eq_true (by omega : i + 1 < 16), Nat.add_sub_cancel]
    simp
  have low (b : Bool) : (if b then 1#16 else 0#16).getLsbD (i + 1) = false := by cases b <;> simp
  simp only [BitVec.getLsbD_or, shifted, low, Bool.or_false]

theorem additive_lfsrStep : Additive lfsrStep := fun a b => by
  refine BitVec.eq_of_getLsbD_eq fun i hi => ?_
  rw [BitVec.getLsbD_xor]
  cases i with
  | zero =>
    simp only [lfsrStep_zero, lfsrFeedback, BitVec.getLsbD_xor, Bool.xor_assoc, Bool.xor_left_comm]
  | succ i =>
    rw [lfsrStep_succ _ _ (by omega), lfsrStep_succ _ _ (by omega), lfsrStep_succ _ _ (by omega), BitVec.getLsbD_xor]

/-- The digits of a 16-bit number. -/
def digits (n : Nat) : List Bool := (List.range 16).map n.testBit

/-- The columns of an iterate, by squares. -/
def stepColumns (n : Nat) : List (BitVec 16) := columns (jump (columns lfsrStep) (digits n))

theorem stepColumns_eq {n : Nat} (h : ofDigits (digits n) = n) : stepColumns n = columns lfsrStep^[n] :=
  List.map_congr_left fun i _ => by rw [jump_columns additive_lfsrStep, h]

theorem lfsrStep_period (v : BitVec 16) : lfsrStep^[65535] v = v := by
  have same : stepColumns 65535 = columns id := by decide +kernel
  rw [stepColumns_eq (by decide +kernel)] at same
  exact (additive_lfsrStep.iterate _).ext (fun _ _ => rfl) same v

/-- An iterate by a proper divisor of the period moves every value to one more of its iterates, by exclusive OR. -/
theorem lfsrStep_moves {n z : Nat} (hn : ofDigits (digits n) = n) (hz : ofDigits (digits z) = z)
    (h : List.zipWith (· ^^^ ·) (stepColumns n) (columns id) = stepColumns z) (v : BitVec 16) :
    lfsrStep^[n] v ^^^ v = lfsrStep^[z] v := by
  have moved : Additive fun w => lfsrStep^[n] w ^^^ w := fun a b => by
    simp only [additive_lfsrStep.iterate n a b]
    ac_rfl
  have columns_moved : columns (fun w => lfsrStep^[n] w ^^^ w) = columns lfsrStep^[z] := by
    rw [← stepColumns_eq hz, ← h, stepColumns_eq hn, columns, columns, columns, List.zipWith_map, List.zipWith_self]
    rfl
  exact moved.ext (additive_lfsrStep.iterate z) columns_moved v

theorem iterate_lfsrStep_ne_zero (n : Nat) {v : BitVec 16} (h : v ≠ 0) : lfsrStep^[n] v ≠ 0 := by
  induction n generalizing v with
  | zero => exact h
  | succ n ih => exact ih (lfsrStep_ne_zero v h)

theorem iterate_lfsrStep_ne {n z : Nat} (hn : ofDigits (digits n) = n) (hz : ofDigits (digits z) = z)
    (h : List.zipWith (· ^^^ ·) (stepColumns n) (columns id) = stepColumns z) {v : BitVec 16} (nonzero : v ≠ 0) :
    lfsrStep^[n] v ≠ v := fun fixed => by
  have moved := lfsrStep_moves hn hz h v
  rw [fixed, BitVec.xor_self] at moved
  exact iterate_lfsrStep_ne_zero z nonzero moved.symm

/-- No value but 0 returns after a 3rd, 5th, 17th or 257th of the period; these are the primes of 65,535. -/
theorem lfsrStep_not_periodic {p : Nat} (prime : p.Prime) (divides : p ∣ 65535) {v : BitVec 16} (nonzero : v ≠ 0) :
    lfsrStep^[65535 / p] v ≠ v := by
  have cases_of : p = 3 ∨ p = 5 ∨ p = 17 ∨ p = 257 := by
    have factors : p ∣ 3 * 5 * 17 * 257 := divides
    rw [prime.dvd_mul, prime.dvd_mul, prime.dvd_mul, Nat.prime_dvd_prime_iff_eq prime (by norm_num),
      Nat.prime_dvd_prime_iff_eq prime (by norm_num), Nat.prime_dvd_prime_iff_eq prime (by norm_num),
      Nat.prime_dvd_prime_iff_eq prime (by norm_num)] at factors
    omega
  rcases cases_of with rfl | rfl | rfl | rfl
  · exact iterate_lfsrStep_ne (n := 21845) (z := 43690) (by decide) (by decide) (by decide +kernel) nonzero
  · exact iterate_lfsrStep_ne (n := 13107) (z := 61166) (by decide) (by decide) (by decide +kernel) nonzero
  · exact iterate_lfsrStep_ne (n := 3855) (z := 8481) (by decide) (by decide) (by decide +kernel) nonzero
  · exact iterate_lfsrStep_ne (n := 255) (z := 12849) (by decide) (by decide) (by decide +kernel) nonzero

theorem minimalPeriod_lfsrStep {v : BitVec 16} (nonzero : v ≠ 0) : Function.minimalPeriod lfsrStep v = 65535 := by
  have divides : Function.minimalPeriod lfsrStep v ∣ 65535 :=
    Function.IsPeriodicPt.minimalPeriod_dvd (lfsrStep_period v)
  by_contra shorter
  obtain ⟨q, whole⟩ := divides
  have more : q ≠ 1 := fun one => shorter (by rw [whole, one, Nat.mul_one])
  obtain ⟨p, prime, r, rfl⟩ := Nat.exists_prime_and_dvd more
  have part : 65535 / p = Function.minimalPeriod lfsrStep v * r := by
    rw [whole, Nat.mul_left_comm, Nat.mul_div_cancel_left _ prime.pos]
  refine lfsrStep_not_periodic prime ⟨Function.minimalPeriod lfsrStep v * r, by rw [whole]; ring⟩ nonzero ?_
  rw [part]
  exact (Function.isPeriodicPt_minimalPeriod lfsrStep v).mul_const r

/-- Settles O42: the period is 65,535 for every non-zero value, and as many values are met on the way. -/
theorem lfsrRunsThroughEveryNonzeroValue : Obligations.LfsrRunsThroughEveryNonzeroValue := by
  unfold Obligations.LfsrRunsThroughEveryNonzeroValue
  refine ⟨fun v => ⟨lfsrStep_zero v, lfsrStep_succ v⟩, fun v nonzero => ⟨lfsrStep_period v, fun n pos lt same => ?_, ?_⟩⟩
  · have bound := Function.IsPeriodicPt.minimalPeriod_le pos same
    rw [minimalPeriod_lfsrStep nonzero] at bound
    omega
  · have distinct := Function.iterate_injOn_Iio_minimalPeriod (f := lfsrStep) (x := v)
    rw [minimalPeriod_lfsrStep nonzero] at distinct
    have met : (Finset.range 65535).image (fun n => (lfsrStep^[n] v).toNat) = Finset.Ico 1 65536 := by
      refine Finset.eq_of_subset_of_card_le (fun k mem => ?_) ?_
      · obtain ⟨n, -, rfl⟩ := Finset.mem_image.1 mem
        have positive : (lfsrStep^[n] v).toNat ≠ 0 := fun zero =>
          iterate_lfsrStep_ne_zero n nonzero (BitVec.eq_of_toNat_eq zero)
        exact Finset.mem_Ico.2 ⟨Nat.pos_of_ne_zero positive, (lfsrStep^[n] v).isLt⟩
      · rw [Finset.card_image_of_injOn, Finset.card_range, Nat.card_Ico]
        intro a ha b hb same
        exact distinct (by simpa using ha) (by simpa using hb) (BitVec.eq_of_toNat_eq same)
    intro w nonzero_w
    have positive : w.toNat ≠ 0 := fun zero => nonzero_w (BitVec.eq_of_toNat_eq zero)
    have mem : w.toNat ∈ Finset.Ico 1 65536 := Finset.mem_Ico.2 ⟨Nat.pos_of_ne_zero positive, w.isLt⟩
    rw [← met] at mem
    obtain ⟨n, range, same⟩ := Finset.mem_image.1 mem
    exact ⟨n, Finset.mem_range.1 range, BitVec.eq_of_toNat_eq same⟩

end Sys2Proof.Proofs

/-! PROOFS. The fields of an order and its five checks (R33, R37 to R39). -/

namespace Sys2Proof.Proofs

open Sys2Proof Sys2Proof.Machine

theorem flag_eq (image : List Byte) (off : Nat) : flag image off = decide (field image off 1 ≠ 0) := by
  rw [flag, bne, beq_eq_decide, decide_not]

theorem hasRepeat_iff (l : List Nat) : hasRepeat l = true ↔ ¬l.Nodup := by
  induction l with
  | nil => simp [hasRepeat]
  | cons a l ih => rw [hasRepeat, Bool.or_eq_true, ih, List.nodup_cons, List.contains_iff_mem, not_and_or, not_not]

theorem lostIllFormed_iff (o : RepairOrder) (p : Profile) : lostIllFormed o p = true ↔
    o.lostCount = 0 ∨ p.m < o.lostCount ∨ (∃ f ∈ o.lost.map LostSlot.frag, p.k + p.m ≤ f) ∨
      ¬(o.lost.map LostSlot.frag).Nodup := by
  simp only [lostIllFormed, Bool.or_eq_true, hasRepeat_iff, List.any_eq_true, decide_eq_true_eq, beq_iff_eq,
    List.mem_map, exists_exists_and_eq_and, gt_iff_lt, or_assoc]
  simp only [Profile.n]

theorem candidatesIllFormed_iff (o : RepairOrder) (p : Profile) : candidatesIllFormed o p = true ↔
    p.k + p.m - 1 < o.candCount ∨ (∃ f ∈ o.cands.map CandidateSlot.frag, p.k + p.m ≤ f) ∨
      ¬(o.cands.map CandidateSlot.frag).Nodup ∨
      ∃ f ∈ o.cands.map CandidateSlot.frag, f ∈ o.lost.map LostSlot.frag := by
  simp only [candidatesIllFormed, Bool.or_eq_true, hasRepeat_iff, List.any_eq_true, decide_eq_true_eq,
    List.contains_iff_mem, List.mem_map, exists_exists_and_eq_and, gt_iff_lt, or_assoc]
  simp only [Profile.n]

theorem holderOf_isSome_iff (s : State) (tag : Nat) :
    (holderOf s tag).isSome = true ↔ ∃ (c : CtxId) (x : Context), s.contexts[c] = some x ∧ x.tag = tag := by
  rw [holderOf, List.find?_isSome]
  refine exists_congr fun c => ?_
  cases s.contexts[c] <;> simp

theorem namedProfile_named {s : State} {o : RepairOrder} {i : Fin 16} (place : i.val = o.profileIndex)
    (valid : (s.control.profiles[i]).valid = true) : namedProfile s o = some s.control.profiles[i] := by
  have entry : s.control.profiles.toList[o.profileIndex]? = some s.control.profiles[i] := by
    rw [← place, List.getElem?_eq_getElem (by simp)]
    simp
  simp only [namedProfile, entry, valid, if_true]

theorem namedProfile_unnamed {s : State} {o : RepairOrder}
    (h : ¬∃ i : Fin 16, i.val = o.profileIndex ∧ (s.control.profiles[i]).valid = true) : namedProfile s o = none := by
  cases named : namedProfile s o with
  | none => rfl
  | some p =>
    refine absurd ?_ h
    unfold namedProfile at named
    split at named
    · cases named
    · rename_i q entry
      split at named
      · rename_i valid
        obtain ⟨lt, rfl⟩ := List.getElem?_eq_some_iff.1 entry
        exact ⟨⟨o.profileIndex, by simpa using lt⟩, rfl, by simpa using valid⟩
      · cases named

/-- Settles O25: the fields by `field_eq_sum`, the checks in the order of the validation's branches. -/
theorem orderValidationInOrder : Obligations.OrderValidationInOrder := by
  unfold Obligations.OrderValidationInOrder
  refine ⟨fun image => ?_, fun s o => ?_⟩
  · simp only [readOrder, flag_eq, field_eq_sum, Nat.min_comm]
  intro lost cands named badLength heldTag
  refine ⟨fun unnamed => ?_, fun i place valid => ?_⟩
  · rw [validateOrder, namedProfile_unnamed unnamed]
  · intro p badLost badCands
    have checks : validateOrder s o = if badLength then .error .length else if badLost then .error .lostList
        else if badCands then .error .candidateList else if heldTag then .error .dupTag else .ok p := by
      rw [validateOrder, namedProfile_named place valid]
      simp only [lostIllFormed_iff, candidatesIllFormed_iff, holderOf_isSome_iff] <;> rfl
    rw [checks]
    refine ⟨fun bad => ?_, fun good bad => ?_, fun good good' bad => ?_, fun good good' good'' held => ?_,
      fun good good' good'' free => ?_⟩
    · rw [if_pos bad]
    · rw [if_neg good, if_pos bad]
    · rw [if_neg good, if_neg good', if_pos bad]
    · rw [if_neg good, if_neg good', if_neg good'', if_pos held]
    · rw [if_neg good, if_neg good', if_neg good'', if_neg free]

end Sys2Proof.Proofs

/-! PROOFS. The solve queue and the deadlines that lead to it (R82, R97 to R99, R101, R102). -/

namespace Sys2Proof.Proofs

open Sys2Proof Sys2Proof.Machine

theorem working_of {s : State} (h : s.control.engine = .running ∨ s.control.engine = .dozing ∨ s.control.engine = .stopping) :
    s.working = true := by
  rcases h with e | e | e <;> simp [State.working, State.walking, e]

/-! ## The most urgent queued context (R102) -/

theorem mostUrgentOf_mem {s : State} {l : List CtxId} {c : CtxId} (h : mostUrgentOf s l = some c) : c ∈ l := by
  induction l generalizing c with
  | nil => cases h
  | cons d l ih =>
    unfold mostUrgentOf at h
    split at h
    · cases h
      exact List.mem_cons_self
    · rename_i e rest
      dsimp only at h
      split at h <;> cases h
      · exact List.mem_cons_of_mem _ (ih rest)
      · exact List.mem_cons_self

/-- The head is taken unless a later context is more urgent. -/
theorem mostUrgentOf_head {s : State} {c : CtxId} {x : Context} {l : List CtxId} (used : s.contexts[c] = some x)
    (later : ∀ d ∈ l, ∃ y, s.contexts[d] = some y ∧ x.urgency ≤ y.urgency) : mostUrgentOf s (c :: l) = some c := by
  unfold mostUrgentOf
  split
  · rfl
  · rename_i d rest
    obtain ⟨y, used', urgency⟩ := later d (mostUrgentOf_mem rest)
    simp [used, used', urgency]

/-- Contexts ahead of a more urgent one are passed over. -/
theorem mostUrgentOf_append {s : State} {c : CtxId} {x : Context} {pre l : List CtxId} (used : s.contexts[c] = some x)
    (found : mostUrgentOf s l = some c) (ahead : ∀ d ∈ pre, ∃ y, s.contexts[d] = some y ∧ x.urgency < y.urgency) :
    mostUrgentOf s (pre ++ l) = some c := by
  induction pre with
  | nil => exact found
  | cons d pre ih =>
    obtain ⟨y, used', urgency⟩ := ahead d List.mem_cons_self
    rw [List.cons_append]
    unfold mostUrgentOf
    rw [ih fun e mem => ahead e (List.mem_cons_of_mem _ mem)]
    simp [used, used', urgency]

theorem exec_solveBegin {s : State} (working : s.working = true) : exec .solveBegin s = .next (beginNext s) := by
  change execSolveBegin s = _
  rw [execSolveBegin, if_pos working]

/-- Settles O35: the solver takes the most urgent queued context, and records its solve. -/
theorem solveBeginTakesTheMostUrgent : Obligations.SolveBeginTakesTheMostUrgent := by
  unfold Obligations.SolveBeginTakesTheMostUrgent
  refine ⟨fun s pre post c x engine idle queue used ahead later => ?_, fun s engine => ⟨exec_solveBegin (working_of engine), ?_⟩⟩
  · intro parity
    have chosen : mostUrgentOf s s.solveQueue = some c := by
      rw [queue]
      exact mostUrgentOf_append used (mostUrgentOf_head used later) ahead
    have passed : c ∉ pre := fun mem => by
      obtain ⟨y, used', urgency⟩ := ahead c mem
      obtain rfl := Option.some.inj (used.symm.trans used')
      exact lt_irrefl _ urgency
    have left : s.solveQueue.erase c = pre ++ post := by rw [queue, List.erase_append_right _ passed, List.erase_cons_head]
    rw [exec_solveBegin (working_of engine), beginNext, if_neg (by simp [idle]), chosen]
    simp only [beginSolve, used, dequeueSolve, left]
    rfl
  · intro nothing
    rw [exec_solveBegin (working_of engine)]
    rcases nothing with busy | empty
    · rw [beginNext_busy s busy]
    · rw [beginNext_empty s empty]

/-! ## The entry to the queue (R101) -/

theorem enqueueSolve_fresh {s : State} {c : CtxId} (unqueued : c ∉ s.solveQueue) (unsolved : s.solve.map Solve.ctx ≠ some c) :
    enqueueSolve c s = { s with solveQueue := s.solveQueue ++ [c] } := by
  rw [enqueueSolve, if_neg]
  simp only [Bool.or_eq_true, List.contains_iff_mem, beq_iff_eq, not_or]
  exact ⟨unqueued, unsolved⟩

/-- What the entry to the queue comes to: a solve's beginning, or a place at the back. -/
theorem enterQueue_entry {t : State} {c : CtxId} {y : Context} (working : t.working = true) (used : t.contexts[c] = some y)
    (unqueued : c ∉ t.solveQueue) (unsolved : t.solve.map Solve.ctx ≠ some c) :
    .next (enterQueue c t) = exec .solveBegin { t with solveQueue := t.solveQueue ++ [c] } ∧
      (t.solve.isSome = true → enterQueue c t = { t with solveQueue := t.solveQueue ++ [c] }) ∧
      (t.solve = none → t.solveQueue = [] → enterQueue c t = { t with solve := some (solveFor c y) }) := by
  have entered : enterQueue c t = beginNext { t with solveQueue := t.solveQueue ++ [c] } := by
    rw [enterQueue, enqueueSolve_fresh unqueued unsolved]
  refine ⟨?_, fun busy => ?_, fun idle empty => enterQueue_idle t c y idle empty used⟩
  · rw [exec_solveBegin (by exact working), entered]
  · rw [entered, beginNext_busy _ (by exact busy)]

/-! ## Selections (R92, R93, R99) -/

theorem usable_eq (k : Candidate) : k.usable = decide (k.state = .awaited ∨ k.state = .landing) := by
  rw [Candidate.usable, Bool.decide_or, beq_eq_decide, beq_eq_decide]

theorem landed_eq (k : Candidate) (front : Nat) :
    k.landed front = k.ranges.any fun r => decide (r.first ≤ front ∧ front < r.first + r.count) := by
  rw [Candidate.landed, Candidate.rangeFor, Bool.eq_iff_iff, List.find?_isSome, List.any_eq_true]
  simp [Range.holds]

theorem landed_iff (k : Candidate) (front : Nat) :
    k.landed front = true ↔ ∃ r ∈ k.ranges, r.first ≤ front ∧ front < r.first + r.count := by
  simp [landed_eq]

/-- A selection: roles and tried marks given, the basis by ascending index, the counts set. -/
theorem startSelection_eq (x : Context) (frags placed : List Nat) : x.startSelection frags placed = { x with
    attempts := 0, changeCount := x.changeCount + 1, basis := frags.insertionSort (· ≤ ·)
    roster := x.roster.map fun k => { k with
      tried := decide (k.frag ∈ placed), role := if k.frag ∈ frags then .basis else .spare } } := by
  simp only [Context.startSelection, Context.setBasis, List.map_map, Function.comp_def, List.contains_eq_mem,
    decide_eq_true_eq]

theorem endSettle_eq (x : Context) : x.endSettle =
    let chosen := ((ranked x.front (x.roster.filter fun k => k.state = .awaited ∨ k.state = .landing)).take
      x.profile.k).map Candidate.frag
    { x with
      state := .solving, settleDeadline := none, attempts := 0, changeCount := x.changeCount + 1
      basis := chosen.insertionSort (· ≤ ·)
      roster := x.roster.map fun k =>
        { k with tried := decide (k.frag ∈ chosen), role := if k.frag ∈ chosen then .basis else .spare } } := by
  have usables : x.usables = x.roster.filter fun k => k.state = .awaited ∨ k.state = .landing :=
    List.filter_congr fun k _ => usable_eq k
  simp only [Context.endSettle, startSelection_eq, usables]

theorem map_fst_zip_take {α β : Type} (l : List α) (m : List β) :
    (List.zip l m).map Prod.fst = l.take (min l.length m.length) ∧
      (List.zip l m).map Prod.snd = m.take (min l.length m.length) := by
  induction l generalizing m with
  | nil => simp
  | cons a l ih =>
    cases m with
    | nil => simp
    | cons b m =>
      obtain ⟨left, right⟩ := ih m
      simp [left, right, Nat.succ_min_succ]

theorem role_spare_eq (k : Candidate) : (k.role == .spare) = decide (k.role = .spare) := beq_eq_decide _ _

theorem members_eq (x : Context) : x.members = x.roster.filter fun k => k.frag ∈ x.basis :=
  List.filter_congr fun _ _ => List.contains_eq_mem _ _

theorem usableSpares_eq (x : Context) : x.usableSpares =
    x.roster.filter fun k => decide ((k.state = .awaited ∨ k.state = .landing) ∧ k.role = .spare) := by
  rw [Context.usableSpares, Context.usables, List.filter_filter]
  refine List.filter_congr fun k _ => ?_
  rw [usable_eq, role_spare_eq, Bool.decide_and, Bool.and_comm]

theorem stragglers_eq (x : Context) : x.stragglers = (ranked x.front (x.roster.filter fun k =>
    k.frag ∈ x.basis ∧ (k.ranges.any fun r => decide (r.first ≤ x.front ∧ x.front < r.first + r.count)) = false)).reverse := by
  rw [Context.stragglers, members_eq, List.filter_filter]
  congr 2
  refine List.filter_congr fun k _ => ?_
  rw [landed_eq, Bool.decide_and, Bool.and_comm]
  cases k.ranges.any fun r => decide (r.first ≤ x.front ∧ x.front < r.first + r.count) <;> simp

theorem landedSpares_eq (x : Context) : x.landedSpares = ranked x.front (x.roster.filter fun k =>
    (k.state = .awaited ∨ k.state = .landing) ∧ k.role = .spare ∧
      (k.ranges.any fun r => decide (r.first ≤ x.front ∧ x.front < r.first + r.count)) = true) := by
  rw [Context.landedSpares, usableSpares_eq, List.filter_filter]
  congr 1
  refine List.filter_congr fun k _ => ?_
  rw [landed_eq, Bool.eq_iff_iff, Bool.and_comm, Bool.and_eq_true, decide_eq_true_iff, decide_eq_true_iff, and_assoc]

/-- The swap of the stragglers against the landed spares, pair by pair (R99). -/
theorem swapStragglers_eq (x : Context) : x.swapStragglers =
    let n := min x.stragglers.length x.landedSpares.length
    let outs := (x.stragglers.take n).map Candidate.frag
    let ins := (x.landedSpares.take n).map Candidate.frag
    let basis := (x.basis.filter fun f => ¬f ∈ outs) ++ ins
    { x with
      attempts := 0, changeCount := x.changeCount + 1, demotions := min 255 (x.demotions + n)
      basis := basis.insertionSort (· ≤ ·)
      roster := x.roster.map fun k =>
        { k with
          demotions := if k.frag ∈ outs then k.demotions + 1 else k.demotions
          tried := decide (k.frag ∈ ins)
          role := if k.frag ∈ basis then .basis else .spare } } := by
  obtain ⟨left, right⟩ := map_fst_zip_take x.stragglers x.landedSpares
  have outs : (List.zip x.stragglers x.landedSpares).map (fun p => p.1.frag) =
      (x.stragglers.take (min x.stragglers.length x.landedSpares.length)).map Candidate.frag := by
    rw [← left, List.map_map]
    rfl
  have ins : (List.zip x.stragglers x.landedSpares).map (fun p => p.2.frag) =
      (x.landedSpares.take (min x.stragglers.length x.landedSpares.length)).map Candidate.frag := by
    rw [← right, List.map_map]
    rfl
  have kept (l : List Nat) : (x.basis.filter fun f => !l.contains f) = x.basis.filter fun f => ¬f ∈ l :=
    List.filter_congr fun f _ => by rw [List.contains_eq_mem, decide_not]
  simp only [Context.swapStragglers, outs, ins, List.length_zip, startSelection_eq, kept, List.map_map, Function.comp_def]
  congr 1
  refine List.map_congr_left fun k _ => ?_
  simp only [List.contains_eq_mem, decide_eq_true_eq]
  split <;> rfl

/-! ## The straggler timer (R97, R98) -/

theorem stragglerCondition_iff (x : Context) : x.stragglerCondition = true ↔ x.state = .active ∧
    (∃ k ∈ x.roster, k.frag ∈ x.basis ∧ ¬∃ r ∈ k.ranges, r.first ≤ x.front ∧ x.front < r.first + r.count) ∧
    ∃ k ∈ x.roster, (k.state = .awaited ∨ k.state = .landing) ∧ k.role = .spare ∧
      ∃ r ∈ k.ranges, r.first ≤ x.front ∧ x.front < r.first + r.count := by
  rw [Context.stragglerCondition, Bool.and_eq_true, Bool.and_eq_true, beq_iff_eq, and_assoc]
  refine and_congr Iff.rfl (and_congr ?_ ?_)
  · rw [Context.survivorsLanded, members_eq, Bool.not_eq_true', ← Bool.not_eq_true, List.all_eq_true]
    push Not
    simp only [List.mem_filter, decide_eq_true_eq, and_assoc, ne_eq, landed_iff]
    push Not
    rfl
  · simp only [usableSpares_eq, List.any_eq_true, List.mem_filter, decide_eq_true_eq, landed_iff, and_assoc]

theorem evaluateStraggler_active {s : State} {c : CtxId} {x : Context} (advanced : Bool) (used : s.contexts[c] = some x)
    (active : x.state = .active) : evaluateStraggler c advanced s = { s with
      contexts := s.contexts.set c (some (x.evalStraggler s.now s.control.timers.straggler advanced)) } := by
  rw [evaluateStraggler, modifyContext_some _ _ _ _ used, if_pos active]
  rfl

theorem evaluateStraggler_other {s : State} {c : CtxId} {x : Context} (advanced : Bool) (used : s.contexts[c] = some x)
    (inactive : x.state ≠ .active) : evaluateStraggler c advanced s = s := by
  rw [evaluateStraggler, modifyContext_some _ _ _ _ used, if_neg inactive, setContext, ← used]
  simp

/-! ## The two deadlines (R82, R99) -/

theorem exec_settleDeadline {s : State} {c : CtxId} {x : Context} {d : Nat} (working : s.working = true)
    (used : s.contexts[c] = some x) (settling : x.state = .settling) (deadline : x.settleDeadline = some d) :
    exec (.settleDeadline c) s = .next (enterQueue c { s with
      now := max s.now d, contexts := s.contexts.set c (some x.endSettle) }) := by
  change execSettleDeadline c s = _
  have bound : d ≤ max s.now d := le_max_right _ _
  simp only [execSettleDeadline, working, used, Option.bind_some, deadline, settleAtDeadline, reachTime_contexts, settling,
    reachTime_now, bound, and_self, if_true, endSettle]
  rw [modifyContext_some _ _ _ x (by exact used)]
  rfl

theorem exec_stragglerExpiry {s : State} {c : CtxId} {x : Context} {d : Nat} (working : s.working = true)
    (used : s.contexts[c] = some x) (active : x.state = .active) (armed : x.stragglerArmed = true)
    (deadline : x.stragglerDeadline = some d) :
    exec (.stragglerExpiry c) s = .next (enterQueue c { s with
      now := max s.now d
      contexts := s.contexts.set c (some { x.swapStragglers with
        state := .solving, stragglerArmed := false, stragglerDeadline := none })
      arbiter := { s.arbiter with ready := s.arbiter.ready.map fun l => l.erase c } }) := by
  change execStragglerExpiry c s = _
  simp only [execStragglerExpiry, working, used, active, armed, deadline, resolveAgain]
  rw [modifyContext_some (reachTime d s) c Context.swapStragglers x (by exact used),
    modifyContext_some _ _ _ x.swapStragglers (setContext_same _ _ _)]
  simp only [setContext, Vector.set_set]
  rfl

/-- Settles O34: both deadlines end in the entry to the queue, with the selection in its closed form. -/
theorem deadlinesChooseTheBasis : Obligations.DeadlinesChooseTheBasis := by
  unfold Obligations.DeadlinesChooseTheBasis
  refine ⟨fun s c x d engine used settling deadline unqueued unsolved => ?_,
    fun s c x d engine used active armed deadline unqueued unsolved => ?_, fun x now interval advanced => ?_,
    fun s c x advanced used => ⟨evaluateStraggler_active advanced used, evaluateStraggler_other advanced used⟩⟩
  · intro chosen y t
    have working : t.working = true := working_of engine
    have ended : x.endSettle = y := endSettle_eq x
    have run : exec (.settleDeadline c) s = .next (enterQueue c t) := by
      rw [exec_settleDeadline (working_of engine) used settling deadline, ended]
    obtain ⟨begun, waits, alone⟩ := enterQueue_entry (t := t) (y := y) working (by simp [t]) unqueued unsolved
    rw [run]
    exact ⟨begun, fun busy => by rw [waits busy], fun idle empty => by rw [alone idle empty]⟩
  · intro landed stragglers spares n outs ins basis y t
    have working : t.working = true := working_of engine
    have swapped : { x.swapStragglers with state := .solving, stragglerArmed := false, stragglerDeadline := none } = y := by
      rw [swapStragglers_eq, stragglers_eq, landedSpares_eq]
    have run : exec (.stragglerExpiry c) s = .next (enterQueue c t) := by
      rw [exec_stragglerExpiry (working_of engine) used active armed deadline, swapped]
    obtain ⟨begun, waits, alone⟩ := enterQueue_entry (t := t) (y := y) working (by simp [t]) unqueued unsolved
    rw [run]
    exact ⟨begun, fun busy => by rw [waits busy], fun idle empty => by rw [alone idle empty]⟩
  · intro landed holds
    have condition : x.stragglerCondition = true ↔ holds := stragglerCondition_iff x
    unfold Context.evalStraggler
    refine ⟨fun met first => ?_, fun met armed still => ?_, fun unmet => ?_⟩
    · rw [if_pos (condition.2 met), if_neg]
      rcases first with e | e <;> simp [e]
    · rw [if_pos (condition.2 met), if_pos (by simp [armed, still])]
    · rw [if_neg (condition.not.2 unmet)]

end Sys2Proof.Proofs

/-! PROOFS. The end of STOPPING (R147, R150, R159): the unmarked blanks linked UNUSED, lane by lane in take order, and
STOPPED when no context is left. -/

namespace Sys2Proof.Proofs

open Sys2Proof Sys2Proof.Machine

-- In order: declarations that run `decide` side by side wait for each other, each on a thread of its own.
set_option Elab.async false

/-! ## The finished chain is left alone -/

theorem linkFilled_finishedTail (p : LaneId) (record : Nat) (s : State) :
    (linkFilled p record s).finishedTail = s.finishedTail := by
  refine inOrder_keeps (P := fun t => t.finishedTail = s.finishedTail) (fun f mem t kept => Eq.trans ?_ kept) rfl
  simp only [List.mem_cons, List.not_mem_nil, or_false] at mem
  rcases mem with rfl | rfl | rfl <;> dsimp only
  · split <;> exact (writeHost_work _ _ _ t).finishedTail_eq
  · rfl
  · split
    · exact (raise_work _ t).finishedTail_eq
    · rfl

theorem returnRecord_finishedTail (p : LaneId) (record : Nat) (f : RecordFields) (s : State) :
    (returnRecord p record f s).finishedTail = s.finishedTail := by
  refine inOrder_keeps (P := fun t => t.finishedTail = s.finishedTail) (fun f mem t kept => Eq.trans ?_ kept) rfl
  simp only [List.mem_cons, List.not_mem_nil, or_false] at mem
  rcases mem with rfl | rfl | rfl | rfl | rfl | rfl | rfl | rfl | rfl
  case inr.inr.inr.inr.inr.inr.inr.inr => exact linkFilled_finishedTail p record t
  all_goals exact (writeHost_work _ _ _ t).finishedTail_eq

theorem linkUnusedOn_finishedTail (p : LaneId) (s : State) : (linkUnusedOn p s).finishedTail = s.finishedTail := by
  refine inOrder_keeps (P := fun t => t.finishedTail = s.finishedTail) (fun f mem t kept => ?_) rfl
  obtain ⟨e, _, rfl⟩ := List.mem_map.1 mem
  refine inOrder_keeps (P := fun t => t.finishedTail = s.finishedTail) (fun f mem t kept => Eq.trans ?_ kept) kept
  simp only [List.mem_cons, List.not_mem_nil, or_false] at mem
  rcases mem with rfl | rfl
  · rfl
  · exact returnRecord_finishedTail p _ _ t

theorem concludeStop_finishedTail (s : State) : (concludeStop s).finishedTail = s.finishedTail := by
  unfold concludeStop
  split
  · refine inOrder_keeps (P := fun t => t.finishedTail = s.finishedTail) (fun f mem t kept => Eq.trans ?_ kept) rfl
    rcases List.mem_append.1 mem with h | h
    · obtain ⟨p, _, rfl⟩ := List.mem_map.1 h
      exact linkUnusedOn_finishedTail p t
    · obtain rfl := List.mem_singleton.1 h
      exact (enterStopped_work t).finishedTail_eq
  · rfl

theorem endEvent_finishedTail (s : State) : (endEvent s).finishedTail = s.finishedTail :=
  ((enterDoze_work _).finishedTail_eq.trans (giveLeave_work _).finishedTail_eq).trans (concludeStop_finishedTail s)

/-! ## One lane's blanks -/

/-- The fields of a blank returned UNUSED. -/
abbrev unusedFields : RecordFields := { status := .unused, tag := 0, frag := 0, key := 0, first := 0, count := 0 }

/-- A record returned with the fences off: its writes, the tail, and a message at most. -/
theorem returnRecord_calm {s : State} (p : LaneId) (record : Nat) (f : RecordFields) (h : Calm s) :
    ∃ ev os, returnRecord p record f s = { s with
      lanes := s.lanes.set p { s.lanes[p] with filledTail := some record }, events := ev
      out := s.out ++ (issued (recordWrites s p record f) s.out.length ++ os) } ∧ os.filter Output.isWrite = [] := by
  rw [returnRecord_permitted p record f h.2 (h.permits _)]
  dsimp only
  split
  · obtain ⟨ev, os, raised, silent, -⟩ := raise_event .laneFilled { issue (recordWrites s p record f) s with
      lanes := s.lanes.set p { s.lanes[p] with filledTail := some record } }
    exact ⟨ev, os, by rw [raised]; simp [issue], silent⟩
  · exact ⟨s.events, [], by simp [issue], rfl⟩

/-- A blank linked UNUSED with the fences off. -/
theorem linkUnused_calm {s : State} (p : LaneId) (e : StockEntry) (h : Calm s) :
    ∃ ev os, linkUnused p e s = { s with
      lanes := s.lanes.set p { s.lanes[p] with
        stock := s.lanes[p].stock.erase e, filledTail := some e.blank.addr }
      events := ev
      out := s.out ++ (issued (recordWrites s p e.blank.addr unusedFields) s.out.length ++ os) } := by
  have removed : Calm (modifyStock p (fun es => es.erase e) s) := h.of_control rfl
  obtain ⟨ev, os, returned, -⟩ := returnRecord_calm p e.blank.addr unusedFields removed
  have same : recordWrites (modifyStock p (fun es => es.erase e) s) p e.blank.addr unusedFields =
      recordWrites s p e.blank.addr unusedFields := by
    simp [recordWrites, filledLinkWrite, modifyStock, setLane]
  refine ⟨ev, os, ?_⟩
  rw [linkUnused, inOrder_pair _ _ h.2 removed.2]
  refine Eq.trans returned ?_
  rw [same]
  simp [modifyStock, setLane]

/-- Blanks stay linked UNUSED in a longer stretch of outputs. -/
theorem linkedUnused_mono {s t s' t' : State} {p : LaneId} {tail : Option Nat} {blanks : List StockEntry}
    (h : linkedUnused s t p tail blanks) (anchor : s.control.anchor = s'.control.anchor)
    (outputs : newOutputs s t <:+: newOutputs s' t') : linkedUnused s' t' p tail blanks := fun pre e post split =>
  have ⟨u, n, place, before, written⟩ := h pre e post split
  ⟨u, n, place.trans anchor, before, written.trans outputs⟩

/-- A list of a lane's blanks linked UNUSED with the fences off: the stock without them, the tail the last of them. -/
theorem linkUnusedAll_calm (p : LaneId) (l : List StockEntry) {s : State} (h : Calm s) :
    ∃ ev os tail, inOrder (l.map (linkUnused p)) s = { s with
        lanes := s.lanes.set p { s.lanes[p] with stock := s.lanes[p].stock.diff l, filledTail := tail }
        events := ev, out := s.out ++ os } ∧
      linkedUnused s (inOrder (l.map (linkUnused p)) s) p s.lanes[p].filledTail l := by
  induction l generalizing s with
  | nil =>
    have same : s.lanes.set p s.lanes[p] = s.lanes := by simp
    refine ⟨s.events, [], s.lanes[p].filledTail, ?_, fun pre e post split => ?_⟩
    · rw [List.map_nil, inOrder_nil, List.diff_nil, List.append_nil]
      exact (congrArg (fun ls => { s with lanes := ls }) same).symm
    cases pre <;> cases split
  | cons e l ih =>
    obtain ⟨ev, os, linked⟩ := linkUnused_calm p e h
    have calm : Calm (linkUnused p e s) := h.of_control (by rw [linked])
    obtain ⟨ev', os', tail, rest, unused⟩ := ih calm
    have run : inOrder ((e :: l).map (linkUnused p)) s = inOrder (l.map (linkUnused p)) (linkUnused p e s) := by
      rw [List.map_cons, inOrder_step _ _ _ h.2]
    have first : (linkUnused p e s).out = s.out ++ (issued (recordWrites s p e.blank.addr unusedFields) s.out.length ++ os) := by
      rw [linked]
    have later : (inOrder (l.map (linkUnused p)) (linkUnused p e s)).out = (linkUnused p e s).out ++ os' := by rw [rest]
    have whole : newOutputs s (inOrder (l.map (linkUnused p)) (linkUnused p e s)) =
        issued (recordWrites s p e.blank.addr unusedFields) s.out.length ++ (os ++ os') :=
      newOutputs_of_append (by rw [later, first]; simp)
    refine ⟨ev', issued (recordWrites s p e.blank.addr unusedFields) s.out.length ++ (os ++ os'), tail, ?_, ?_⟩
    · rw [run, rest, linked]
      simp
    · rw [run]
      intro pre d post split
      cases pre with
      | nil =>
        obtain ⟨rfl, rfl⟩ := List.cons.inj split
        exact ⟨s, s.out.length, rfl, rfl, whole ▸ (List.prefix_append _ _).isInfix⟩
      | cons b pre =>
        obtain ⟨rfl, tail_split⟩ := List.cons.inj split
        obtain ⟨u, n, anchor, before, written⟩ := unused pre d post tail_split
        refine ⟨u, n, anchor.trans (by rw [linked]), before.trans ?_, written.trans ?_⟩
        · rw [linked, List.getLast?_cons]
          cases pre.getLast? <;> simp
        · rw [whole, newOutputs_of_append later, ← List.append_assoc]
          exact (List.suffix_append _ _).isInfix

theorem available_eq (k : StockEntry) : (!k.available) = (k.reservation.isSome || k.claim.isSome) := by
  rw [StockEntry.available]
  cases k.reservation <;> cases k.claim <;> rfl

/-- The unmarked blanks of a lane linked UNUSED with the fences off. -/
theorem linkUnusedOn_calm (p : LaneId) {s : State} (h : Calm s) :
    ∃ ev os tail, linkUnusedOn p s = { s with
        lanes := s.lanes.set p { s.lanes[p] with
          stock := s.lanes[p].stock.filter fun k => k.reservation.isSome || k.claim.isSome, filledTail := tail }
        events := ev, out := s.out ++ os } ∧
      linkedUnused s (linkUnusedOn p s) p s.lanes[p].filledTail
        (s.lanes[p].stock.filter fun k => k.reservation.isNone && k.claim.isNone) := by
  obtain ⟨ev, os, tail, run, unused⟩ := linkUnusedAll_calm p (s.lanes[p].stock.filter StockEntry.available) h
  have left : s.lanes[p].stock.diff (s.lanes[p].stock.filter StockEntry.available) =
      s.lanes[p].stock.filter fun k => k.reservation.isSome || k.claim.isSome :=
    (diff_filter _ _).trans (List.filter_congr fun k _ => available_eq k)
  rw [left] at run
  exact ⟨ev, os, tail, run, unused⟩

/-! ## Every lane's blanks (R150, R159) -/

/-- The unmarked blanks of these lanes linked UNUSED, lane after lane, with the fences off. -/
theorem linkUnusedOnAll_calm (ps : List LaneId) (nodup : ps.Nodup) {s : State} (h : Calm s) :
    let t := inOrder (ps.map linkUnusedOn) s
    t.control = s.control ∧ s.out <+: t.out ∧ (∀ p ∉ ps, t.lanes[p] = s.lanes[p]) ∧
      ∀ p ∈ ps, t.lanes[p].stock = s.lanes[p].stock.filter (fun k => k.reservation.isSome || k.claim.isSome) ∧
        linkedUnused s t p s.lanes[p].filledTail
          (s.lanes[p].stock.filter fun k => k.reservation.isNone && k.claim.isNone) := by
  induction ps generalizing s with
  | nil => exact ⟨rfl, List.prefix_refl _, fun _ _ => rfl, fun p mem => absurd mem List.not_mem_nil⟩
  | cons q ps ih =>
    obtain ⟨fresh, nodup⟩ := List.nodup_cons.1 nodup
    obtain ⟨ev, os, tail, linked, unused⟩ := linkUnusedOn_calm q h
    have control : (linkUnusedOn q s).control = s.control := by rw [linked]
    have out : (linkUnusedOn q s).out = s.out ++ os := by rw [linked]
    have here : (linkUnusedOn q s).lanes[q] = { s.lanes[q] with
        stock := s.lanes[q].stock.filter fun k => k.reservation.isSome || k.claim.isSome, filledTail := tail } := by
      rw [linked]; simp
    have others (p : LaneId) (other : p ≠ q) : (linkUnusedOn q s).lanes[p] = s.lanes[p] := by
      rw [linked]
      exact setLane_other s q p _ other
    have calm : Calm (linkUnusedOn q s) := h.of_control control
    obtain ⟨control', grows, outside, inside⟩ := ih nodup calm
    simp only [List.map_cons, inOrder_step _ _ _ h.2]
    have start : s.out <+: (linkUnusedOn q s).out := out ▸ List.prefix_append _ _
    obtain ⟨os', later⟩ := grows
    have whole : newOutputs s (inOrder (ps.map linkUnusedOn) (linkUnusedOn q s)) = os ++ os' :=
      newOutputs_of_append (by rw [← later, out, List.append_assoc])
    refine ⟨control'.trans control, start.trans ⟨os', later⟩, fun p out_of => ?_, fun p mem => ?_⟩
    · obtain ⟨other, rest⟩ := not_or.1 (List.mem_cons.not.1 out_of)
      rw [outside p rest, others p other]
    · rcases List.mem_cons.1 mem with rfl | mem
      · refine ⟨by rw [outside p fresh, here], linkedUnused_mono unused rfl ?_⟩
        rw [whole, newOutputs_of_append out]
        exact (List.prefix_append _ _).isInfix
      · have other : p ≠ q := fun e => fresh (e ▸ mem)
        obtain ⟨stock, unused'⟩ := inside p mem
        rw [others p other] at stock unused'
        refine ⟨stock, linkedUnused_mono unused' (by rw [control]) ?_⟩
        rw [whole, newOutputs_of_append later.symm]
        exact (List.suffix_append _ _).isInfix

/-- The end of an event in STOPPING, with the fences off. -/
theorem concludeStop_calm {s : State} (stopping : s.control.engine = .stopping) (off : s.unfenced) :
    let t := concludeStop s
    t.control.engine = (if contextsInUse s = 0 then .stopped else .stopping) ∧
      (contextsInUse s = 0 → t.events.bits.getLsbD 7 = true) ∧
      (∀ p : LaneId,
        t.lanes[p].stock = s.lanes[p].stock.filter (fun k => k.reservation.isSome || k.claim.isSome) ∧
        linkedUnused s t p s.lanes[p].filledTail
          (s.lanes[p].stock.filter fun k => k.reservation.isNone && k.claim.isNone)) := by
  have calm : Calm s := calm_of_working off (.inr (.inr stopping))
  obtain ⟨control, grows, -, lanes⟩ := linkUnusedOnAll_calm (List.finRange 32) (List.nodup_finRange 32) calm
  have unused_work : Work stopKinds s (inOrder ((List.finRange 32).map linkUnusedOn) s) := inOrder_work (fun f mem t => by
    obtain ⟨p, _, rfl⟩ := List.mem_map.1 mem
    exact linkUnusedOn_work p t) s
  have used := contextsInUse_congr unused_work.usage_eq
  have run : concludeStop s = enterStopped (inOrder ((List.finRange 32).map linkUnusedOn) s) := by
    rw [concludeStop, if_pos stopping, inOrder_append]
    exact inOrder_one _ (calm.of_control control).2
  generalize inOrder ((List.finRange 32).map linkUnusedOn) s = u at *
  have ended : (enterStopped u).lanes = u.lanes := (enterStopped_work u).lanes_eq
  simp only [run, ended]
  refine ⟨?_, fun none => ?_, fun p => ?_⟩
  · unfold enterStopped
    rw [used]
    split
    · rw [raise_control]
    · rw [control, stopping]
  · rw [enterStopped, if_pos (used.trans none)]
    exact raise_sets .engineStopped _
  · obtain ⟨stock, unused⟩ := lanes p (List.mem_finRange p)
    refine ⟨stock, linkedUnused_mono unused rfl ?_⟩
    obtain ⟨os, later⟩ := grows
    obtain ⟨os', last⟩ := (enterStopped_work u).logKept.2.2.2
    rw [newOutputs_of_append later.symm, newOutputs_of_append (os := os ++ os') (by rw [← last, ← later, List.append_assoc])]
    exact (List.prefix_append _ _).isInfix

theorem concludeStop_pen (s : State) : (concludeStop s).pen = s.pen := (concludeStop_work s).pen_eq

/-! ## The end of an event -/

theorem giveLeave_enterDoze_of_still {s : State} (still : s.walking = false) : enterDoze (giveLeave s) = s := by
  rw [giveLeave_of_still still]
  have other : s.control.engine ≠ .running := fun e => by simp [State.walking, e] at still
  exact enterDoze_not_ready s (by simp [dozeReady, other])

/-- In STOPPING an event ends with the UNUSED appends and STOPPED. -/
theorem endEvent_stopping {s : State} (stopping : s.control.engine = .stopping) (off : s.unfenced) :
    endEvent s = concludeStop s := by
  have engine := (concludeStop_calm stopping off).1
  refine giveLeave_enterDoze_of_still ?_
  unfold State.walking
  rw [engine]
  split <;> rfl

end Sys2Proof.Proofs

/-! PROOFS. The completion of a solve (R105 to R107). -/

namespace Sys2Proof.Proofs

open Sys2Proof Sys2Proof.Machine

/-! ## The last context (R159) -/

theorem others_free {s : State} {c : CtxId} {x : Context} (one : contextsInUse s = 1) (used : s.contexts[c] = some x)
    {d : CtxId} (other : d ≠ c) : s.contexts[d] = none := by
  by_contra busy
  have size : s.contexts.toList.length = 48 := by simp
  have at_c : s.contexts.toList[c.val]'(by simp) = some x := by simpa using used
  have at_d : (s.contexts.toList[d.val]'(by simp)).isSome = true := by
    rw [Vector.getElem_toList]
    exact Option.isSome_iff_ne_none.2 busy
  have without : (s.contexts.toList.set c.val none).countP Option.isSome = 0 := by
    rw [List.countP_set (by simp)]
    simp only [at_c, Option.isSome_some, if_true, Option.isSome_none, Bool.false_eq_true, if_false, Nat.add_zero]
    rw [← contextsInUse, one]
  have place : d.val ≠ c.val := fun e => other (Fin.ext e)
  have mem : s.contexts.toList[d.val]'(by simp) ∈ s.contexts.toList.set c.val none :=
    List.mem_iff_getElem.2 ⟨d.val, by simp, by rw [List.getElem_set_of_ne place.symm]⟩
  exact List.countP_eq_zero.1 without _ mem at_d

/-- The engine is STOPPED at the end of the event that frees the last context. -/
theorem endEvent_stops {s : State} (stopping : s.control.engine = .stopping) (off : s.unfenced)
    (free : ∀ c : CtxId, s.contexts[c] = none) :
    (endEvent s).control.engine = .stopped ∧ (endEvent s).events.bits.getLsbD 7 = true := by
  have none := (contextsInUse_eq_zero_iff s).2 free
  obtain ⟨engine, raised, -⟩ := concludeStop_calm stopping off
  rw [endEvent_stopping stopping off]
  exact ⟨engine.trans (if_pos none), raised none⟩

/-- What every end of a drain comes to, when the rest of the event frees and fills no context and writes nothing. -/
theorem drainEnds {K : List Kind} {s : State} {c : CtxId} {x : Context} {f : State → State} (h : Calm s)
    (used : s.contexts[c] = some x) (work : ∀ t, Work K t (f t))
    (hK : ∀ k ∈ K, k ∉ [Kind.halt, .engine, .load, .lock, .anchor, .reset, .accept, .tails] := by decide) :
    (endEvent (f (finishContext c s))).contexts[c] = none ∧
      (endEvent (f (finishContext c s))).finishedTail = some x.orderAddr ∧
      (s.control.engine = .stopping → contextsInUse s = 1 →
        (endEvent (f (finishContext c s))).control.engine = .stopped ∧
          (endEvent (f (finishContext c s))).events.bits.getLsbD 7 = true) := by
  have allowed (k : Kind) (mem : k ∈ K) (bad : k ∈ [Kind.halt, .engine, .load, .lock, .anchor, .reset, .accept, .tails]) :
      False := hK k mem bad
  have not_accept : Kind.accept ∉ K := fun mem => allowed _ mem (by decide)
  obtain ⟨free, tail⟩ := finishContext_ends h used
  have control : (f (finishContext c s)).control = s.control :=
    ((work _).control_eq fun k mem bad => allowed k mem (by
      simp only [List.mem_cons, List.not_mem_nil, or_false] at bad ⊢; tauto)).trans (finishContext_control c h)
  have stays (d : CtxId) (before : (finishContext c s).contexts[d] = none) : (f (finishContext c s)).contexts[d] = none :=
    (work _).free_stays d before not_accept
  refine ⟨?_, ?_, fun stopping one => ?_⟩
  · exact (endEvent_work _).free_stays c (stays c free)
  · rw [endEvent_finishedTail]
    exact ((work _).finishedTail_eq fun k mem bad => allowed k mem (by
      simp only [List.mem_cons, List.not_mem_nil, or_false] at bad ⊢; tauto)).trans tail
  · refine endEvent_stops (by rw [control]; exact stopping) (h.of_control control).1 fun d => stays d ?_
    by_cases e : d = c
    · subst e; exact free
    · exact (finishContext_work c s).free_stays d (others_free one used e)

/-! ## The completion (R105) -/

theorem beginNext_halted (s : State) : (beginNext s).halted = s.halted := halted_of_engine_eq (beginNext_work s).engine_eq

/-- What follows the solver's acts at a completion. -/
theorem exec_solveCompletion {s u w : State} {v : Solve} (working : s.working = true) (solve : s.solve = some v)
    (acted : actOnSolve v { s with solve := none } = u) (live : u.halted = false)
    (ended : finishIfDue v.ctx u = w) (still : w.halted = false) :
    exec .solveCompletion s = .next (endEvent (arbitrate (beginNext w))) := by
  have started : s.halted = false := not_halted fun stopped => by simp [State.working, State.walking, stopped] at working
  change execSolveCompletion s = _
  simp only [execSolveCompletion, working, solve]
  rw [inOrder_step _ _ _ (by exact started), acted, inOrder_step _ _ _ live, ended, inOrder_step _ _ _ still,
    inOrder_pair _ _ ((beginNext_halted w).trans still) ((arbitrate_halted _).trans ((beginNext_halted w).trans still))]

theorem actOnSolve_some {s : State} {v : Solve} {x : Context} (used : s.contexts[v.ctx] = some x) :
    actOnSolve v s = if x.state ≠ .solving ∨ x.cancelPending = true ∨ x.abortPending = true then s
      else if x.changeCount ≠ v.changeCount then enqueueSolve v.ctx s
      else match solveResult v with
        | some rows => installRows v.ctx rows s
        | none => actOnSingular v.ctx s := by
  simp only [actOnSolve, used] <;> rfl

theorem live_of_working {s : State}
    (h : s.control.engine = .running ∨ s.control.engine = .dozing ∨ s.control.engine = .stopping) : s.halted = false :=
  not_halted fun stopped => by simp [stopped] at h

/-- Settles O36: a solve that no longer belongs to its context, by the branches of the solver's acts. -/
theorem staleSolvesAreDiscarded : Obligations.StaleSolvesAreDiscarded := by
  unfold Obligations.StaleSolvesAreDiscarded
  intro s v x engine solve used
  have live := live_of_working engine
  have acted := actOnSolve_some (s := { s with solve := none }) (v := v) used
  have idle (c : CtxId) : inFlight { s with solve := none } c = ((s.combine.map Combine.ctx) == some c) := by
    simp [inFlight]
  refine ⟨fun stale waits => ?_, fun draining alone off => ?_, fun solving uncancelled unaborted changed unqueued => ?_⟩
  · rw [if_pos stale] at acted
    refine exec_solveCompletion (working_of engine) solve acted live ?_ live
    by_cases draining : x.state = .draining
    · exact finishIfDue_of_inFlight (by rw [idle, waits draining, beq_self_eq_true])
    · exact finishIfDue_of_not_draining used draining
  · have stale : x.state ≠ .solving ∨ x.cancelPending = true ∨ x.abortPending = true := .inl (by rw [draining]; decide)
    rw [if_pos stale] at acted
    have calm : Calm { s with solve := none } := calm_of_working off engine
    have ended := finishIfDue_due (s := { s with solve := none }) used draining (by rw [idle]; exact beq_false_of_ne alone)
    have run := exec_solveCompletion (working_of engine) solve acted live ended
      (calm.of_control (finishContext_control _ calm)).2
    obtain ⟨free, tail, stops⟩ := drainEnds (K := solveKinds ++ arbitrateKinds) (f := fun t => arbitrate (beginNext t)) calm
      used fun t => (beginNext_work t).mono.trans (arbitrate_work _).mono
    exact ⟨_, run, rfl, free, tail, stops⟩
  · rw [if_neg (by simp [solving, uncancelled, unaborted]), if_pos changed] at acted
    refine exec_solveCompletion (working_of engine) solve
      (acted.trans (enqueueSolve_fresh (by exact unqueued) (by simp))) live (finishIfDue_of_not_draining used ?_) live
    rw [solving]
    decide

/-! ## A solve that stands (R83, R96, R106, R107) -/

theorem steered_iff (x : Context) : x.steered = true ↔ ∀ e ∈ x.lost, e.lane.isSome = true := List.all_eq_true

theorem replacement_eq (x : Context) : x.replacement =
    match (ranked x.front (x.roster.filter fun k => k.frag ∈ x.basis ∧ k.tried = true)).getLast?,
      (ranked x.front (x.roster.filter fun k =>
        (k.state = .awaited ∨ k.state = .landing) ∧ k.role = .spare ∧ k.tried = false)).head? with
    | some out, some into => some (out.frag, into.frag)
    | _, _ => none := by
  have placed : x.members.filter Candidate.tried = x.roster.filter fun k => k.frag ∈ x.basis ∧ k.tried = true := by
    rw [members_eq, List.filter_filter]
    exact List.filter_congr fun k _ => by rw [Bool.decide_and, Bool.and_comm, Bool.decide_coe]
  have untried : (x.usableSpares.filter fun k => !k.tried) = x.roster.filter fun k =>
      (k.state = .awaited ∨ k.state = .landing) ∧ k.role = .spare ∧ k.tried = false := by
    rw [usableSpares_eq, List.filter_filter]
    refine List.filter_congr fun k _ => ?_
    rw [Bool.eq_iff_iff, Bool.and_comm, Bool.and_eq_true, decide_eq_true_iff, decide_eq_true_iff, and_assoc,
      Bool.not_eq_true']
  rw [Context.replacement, placed, untried] <;> rfl

theorem replace_eq (x : Context) (out into : Nat) : x.replace out into =
    let basis := (x.basis.filter fun f => f ≠ out) ++ [into]
    { x with
      changeCount := x.changeCount + 1, basis := basis.insertionSort (· ≤ ·)
      roster := x.roster.map fun k => { k with
        tried := k.tried || decide (k.frag = into), role := if k.frag ∈ basis then .basis else .spare } } := by
  have kept : (x.basis.filter fun f => f != out) = x.basis.filter fun f => f ≠ out :=
    List.filter_congr fun f _ => by rw [bne, beq_eq_decide, decide_not]
  simp only [Context.replace, Context.setBasis, kept, List.map_map, Function.comp_def, List.contains_eq_mem,
    decide_eq_true_eq, beq_eq_decide]

theorem enterActive_some {s : State} {c : CtxId} {x : Context} (used : s.contexts[c] = some x) :
    enterActive c s = { s with contexts := s.contexts.set c (some
      (({ x with state := .active, stragglerArmed := false, stragglerDeadline := none }).evalStraggler
        s.now s.control.timers.straggler false)) } := by
  rw [enterActive, modifyContext_some _ _ _ _ used,
    evaluateStraggler_active _ (setContext_same _ _ _) (by rfl)]
  simp only [setContext, Vector.set_set]
  rfl

theorem evalStraggler_state (x : Context) (now interval : Nat) (advanced : Bool) :
    (x.evalStraggler now interval advanced).state = x.state := by
  unfold Context.evalStraggler
  split
  · split <;> rfl
  · rfl

/-- A completion whose acts leave the control unit alone, with the fences off. -/
theorem exec_solveCompletion_calm {s u : State} {v : Solve} (h : Calm s) (working : s.working = true) (solve : s.solve = some v)
    (acted : actOnSolve v { s with solve := none } = u) (control : u.control = s.control) :
    exec .solveCompletion s = .next (endEvent (arbitrate (beginNext (finishIfDue v.ctx u)))) := by
  have calm := h.of_control control
  exact exec_solveCompletion working solve acted calm.2 rfl (calm.of_control (finishIfDue_control _ calm)).2

/-- A context just set that is not draining is left to itself by the drain's end. -/
theorem finishIfDue_of_contexts {s u : State} {c : CtxId} {y : Context} (h : u.contexts = s.contexts.set c (some y))
    (live : y.state ≠ .draining) : finishIfDue c u = u :=
  finishIfDue_of_not_draining (by rw [h]; simp) live

theorem actOnSolve_standing {s : State} {v : Solve} {x : Context} (used : s.contexts[v.ctx] = some x)
    (solving : x.state = .solving) (uncancelled : x.cancelPending = false) (unaborted : x.abortPending = false)
    (unchanged : x.changeCount = v.changeCount) : actOnSolve v s = match solveResult v with
      | some rows => installRows v.ctx rows s
      | none => actOnSingular v.ctx s := by
  rw [actOnSolve_some used, if_neg (by simp [solving, uncancelled, unaborted]), if_neg (by simp [unchanged])]

theorem ranked_eq_nil_iff (front : Nat) (l : List Candidate) : ranked front l = [] ↔ l = [] :=
  ⟨fun h => ((ranked_perm front l).symm.trans (by rw [h])).eq_nil, fun h => by rw [h]; rfl⟩

/-- A SINGULAR result that drains its context (R96, R107). -/
theorem actOnSingular_drains {s : State} {c : CtxId} {x : Context} (used : s.contexts[c] = some x)
    (spent : 8 ≤ x.attempts + 1 ∨ { x with attempts := x.attempts + 1 }.replacement = none) :
    actOnSingular c s = enterDraining c .unrecoverable .singular
      { s with contexts := s.contexts.set c (some { x with attempts := x.attempts + 1 }) } := by
  simp only [actOnSingular, used]
  split
  · rfl
  · rename_i below
    rcases spent with limit | none
    · exact absurd limit below
    · rw [none]
      rfl

/-- A SINGULAR result that replaces a member (R96). -/
theorem actOnSingular_replaces {s : State} {c : CtxId} {x : Context} {out into : Nat} (used : s.contexts[c] = some x)
    (below : x.attempts + 1 < 8) (pair : { x with attempts := x.attempts + 1 }.replacement = some (out, into)) :
    actOnSingular c s = enqueueSolve c
      { s with contexts := s.contexts.set c (some ({ x with attempts := x.attempts + 1 }.replace out into)) } := by
  simp only [actOnSingular, used]
  rw [if_neg (by exact Nat.not_le.2 below), pair]
  rfl

/-- Settles O37: a solve that stands, SUCCESS and SINGULAR, by the branches of the solver's acts. -/
theorem standingSolvesAreActedOn : Obligations.StandingSolvesAreActedOn := by
  unfold Obligations.StandingSolvesAreActedOn
  intro s v x engine solve used solving uncancelled unaborted unchanged unqueued off after
  have engine' : s.control.engine = .running ∨ s.control.engine = .dozing ∨ s.control.engine = .stopping :=
    engine.imp id .inl
  have calm := calm_of_working off engine'
  have acted := actOnSolve_standing (s := { s with solve := none }) used solving uncancelled unaborted unchanged
  have completion {u : State} := exec_solveCompletion_calm (u := u) calm (working_of engine') solve
  refine ⟨fun inverse inverted => ?_, fun singular => ?_⟩
  · intro y t
    have result : solveResult v = some (v.lost.map (coefficientRow inverse)) := by rw [solveResult, inverted]; rfl
    have installed : actOnSolve v { s with solve := none } =
        if x.steered then enterActive v.ctx t else enterSteering v.ctx t := by
      rw [acted, result]
      simp only [installRows, used]
      rfl
    have entry : t.contexts[v.ctx] = some y := by simp [t]
    refine ⟨fun steered => ?_, fun ⟨e, mem, unsteered⟩ => ?_⟩
    · rw [if_pos ((steered_iff x).2 steered), enterActive_some entry] at installed
      refine (completion installed rfl).trans (congrArg (fun u => Host.Outcome.next (after u)) ?_)
      simp only [t, Vector.set_set]
      exact finishIfDue_of_contexts (s := s) rfl (by rw [evalStraggler_state]; exact fun e => by cases e)
    · rw [if_neg fun all => by simpa [unsteered] using (steered_iff x).1 all e mem] at installed
      exact completion installed (enterSteering_work _ t).control_eq
  · intro placed untried t
    have result : solveResult v = none := by rw [solveResult, singular]; rfl
    rw [result] at acted
    refine ⟨fun spent => ?_, fun out into below last first => ?_⟩
    · have drains := actOnSingular_drains (s := { s with solve := none }) used (spent.imp id fun empty => by
        rw [replacement_eq]
        rcases empty with none | none
        · rw [(ranked_eq_nil_iff x.front _).2 none]
          rfl
        · rw [(ranked_eq_nil_iff x.front _).2 none, List.head?_nil]
          split <;> simp_all)
      exact completion (acted.trans drains) (enterDraining_work _ _ _ t).control_eq
    · intro basis
      have pair : { x with attempts := x.attempts + 1 }.replacement = some (out.frag, into.frag) := by
        simp only [placed, untried] at last first
        simp only [replacement_eq, last, first]
      have replaced := actOnSingular_replaces (s := { s with solve := none }) used below pair
      rw [enqueueSolve_fresh (by exact unqueued) (by simp), replace_eq] at replaced
      refine (completion (acted.trans replaced) rfl).trans (congrArg (fun u => Host.Outcome.next (after u)) ?_)
      exact finishIfDue_of_contexts (s := s) rfl (by simp [solving])

end Sys2Proof.Proofs

/-! PROOFS. A steering pass (R84, R132, R133): resolution in lost-list order, then the first attempt, or the drain. -/

namespace Sys2Proof.Proofs

open Sys2Proof Sys2Proof.Machine

/-- The LFSR after the draws of some fragments. -/
def lfsrAfter (table : SteeringTable) (v : BitVec 16) (es : List LostEntry) : BitVec 16 :=
  es.foldl (fun v e => (resolveEntry table v e).1) v

/-- Every fragment resolves in its turn, to the entry that stands at its place in the other list. -/
def ResolvesTo (table : SteeringTable) (v : BitVec 16) (es lost : List LostEntry) : Prop :=
  ∀ pre e post, es = pre ++ e :: post → ∃ key p, (resolveEntry table (lfsrAfter table v pre) e).2 = .resolved key p ∧
    lost[pre.length]? = some { e with
      resolvedKey := some key, preferred := some p
      groupFirst := some (table.groupFirst p), groupLast := some (table.groupLast p) }

theorem ResolvesTo.cons {table : SteeringTable} {v : BitVec 16} {e g : LostEntry} {es lost : List LostEntry}
    (h : ResolvesTo table v (e :: es) (g :: lost)) : ResolvesTo table (resolveEntry table v e).1 es lost :=
  fun pre d post split => by simpa [lfsrAfter] using h (e :: pre) d post (by rw [split]; rfl)

theorem resolveAll_resolved {table : SteeringTable} {v v' : BitVec 16} {e : LostEntry} {es : List LostEntry} {key : Nat}
    {p : LaneId} (h : resolveEntry table v e = (v', .resolved key p)) :
    resolveAll table v (e :: es) =
      { resolveAll table v' es with lost := e.resolve table key p :: (resolveAll table v' es).lost } := by
  rw [resolveAll, h]

theorem resolveAll_failed {table : SteeringTable} {v v' : BitVec 16} {e : LostEntry} {es : List LostEntry} {d : Detail}
    (h : resolveEntry table v e = (v', .failed d)) :
    resolveAll table v (e :: es) = { lfsr := v', lost := e :: es, failure := some d } := by
  rw [resolveAll, h]

theorem resolveAll_of_resolvesTo {table : SteeringTable} {v : BitVec 16} {es lost : List LostEntry}
    (size : lost.length = es.length) (h : ResolvesTo table v es lost) :
    resolveAll table v es = { lfsr := lfsrAfter table v es, lost := lost, failure := none } := by
  induction es generalizing v lost with
  | nil =>
    obtain rfl := List.length_eq_zero_iff.1 size
    rfl
  | cons e es ih =>
    obtain ⟨g, lost, rfl⟩ := List.exists_cons_of_length_eq_add_one size
    obtain ⟨key, p, resolved, entry⟩ := h [] e es rfl
    obtain rfl : g = e.resolve table key p := Option.some.inj entry
    have first : resolveEntry table v e = ((resolveEntry table v e).1, .resolved key p) := Prod.ext rfl resolved
    rw [resolveAll_resolved first, ih (Nat.succ.inj size) h.cons]
    rfl

/-- Fragments that resolve before one that fails keep what their resolution gave. -/
theorem resolveAll_of_failure {table : SteeringTable} {v : BitVec 16} {pre post : List LostEntry} {e : LostEntry} {d : Detail}
    (before : ∀ a g b, pre = a ++ g :: b → ∃ key p, (resolveEntry table (lfsrAfter table v a) g).2 = .resolved key p)
    (fails : (resolveEntry table (lfsrAfter table v pre) e).2 = .failed d) :
    ∃ resolved : List LostEntry, resolveAll table v (pre ++ e :: post) =
        { lfsr := lfsrAfter table v (pre ++ [e]), lost := resolved ++ e :: post, failure := some d } ∧
      resolved.length = pre.length ∧ resolved.map LostEntry.lane = pre.map LostEntry.lane ∧
      ResolvesTo table v pre resolved := by
  induction pre generalizing v with
  | nil =>
    refine ⟨[], resolveAll_failed (Prod.ext rfl fails), rfl, rfl, fun a g b split => ?_⟩
    cases a <;> cases split
  | cons g pre ih =>
    obtain ⟨key, p, resolved⟩ := before [] g pre rfl
    have first : resolveEntry table v g = ((resolveEntry table v g).1, .resolved key p) := Prod.ext rfl resolved
    obtain ⟨rest, run, size, lanes, each⟩ := ih (v := (resolveEntry table v g).1)
      (fun a h b split => by simpa [lfsrAfter] using before (g :: a) h b (by rw [split]; rfl)) fails
    refine ⟨g.resolve table key p :: rest, ?_, by simp [size], by simp [lanes, LostEntry.resolve], fun a h b split => ?_⟩
    · rw [List.cons_append, resolveAll_resolved first, run]
      rfl
    · cases a with
      | nil =>
        obtain ⟨rfl, rfl⟩ := List.cons.inj split
        exact ⟨key, p, resolved, rfl⟩
      | cons f a =>
        obtain ⟨rfl, tail⟩ := List.cons.inj split
        simpa [lfsrAfter] using each a h b tail

/-- Settles O44: a pass that resolves goes on to its attempt, and one that fails drains. -/
theorem steeringPassResolvesInOrder : Obligations.SteeringPassResolvesInOrder := by
  unfold Obligations.SteeringPassResolvesInOrder
  intro s c x used table after
  have pass : enterSteering c s = match (resolveAll table s.steering.lfsr x.lost).failure with
      | some d => enterDraining c .steerFailed d (setContext c (some { x with
          state := .steering, lost := (resolveAll table s.steering.lfsr x.lost).lost })
          { s with steering := { s.steering with lfsr := (resolveAll table s.steering.lfsr x.lost).lfsr } })
      | none => attemptSteering c (setContext c (some { x with
          state := .steering, lost := (resolveAll table s.steering.lfsr x.lost).lost })
          { s with steering := { s.steering with lfsr := (resolveAll table s.steering.lfsr x.lost).lfsr } }) := by
    simp only [enterSteering, used] <;> rfl
  refine ⟨fun lost size each => ?_, fun pre e post d split before fails => ?_⟩
  · rw [pass, resolveAll_of_resolvesTo size each]
    rfl
  · obtain ⟨resolved, run, size, lanes, each⟩ := resolveAll_of_failure (post := post) before fails
    rw [split, run] at pass
    have drained := enterDraining_live (setContext c (some { x with state := .steering, lost := resolved ++ e :: post })
      { s with steering := { s.steering with lfsr := lfsrAfter table s.steering.lfsr (pre ++ [e]) } }) c .steerFailed d
      { x with state := .steering, lost := resolved ++ e :: post } (setContext_same _ _ _) (by simp)
    have whole := pass.trans drained
    refine ⟨_, by rw [whole]; exact Vector.getElem_set_self _, rfl, rfl, rfl, ?_, ⟨resolved, rfl, size, each⟩, ?_, ?_, ?_⟩
    · simp [split, lanes]
    · rw [whole]
      rfl
    · rw [whole]
      rfl
    · rw [whole]
      rfl

end Sys2Proof.Proofs

/-! PROOFS. Assignment attempts and the retries (R134 to R136). -/

namespace Sys2Proof.Proofs

open Sys2Proof Sys2Proof.Machine

-- In order: declarations that run `decide` side by side wait for each other, each on a thread of its own.
set_option Elab.async false

/-! ## Blanks of a stock -/

theorem available_iff (k : StockEntry) : k.available = true ↔ k.reservation = none ∧ k.claim = none := by
  rw [StockEntry.available, Bool.and_eq_true, Option.isNone_iff_eq_none, Option.isNone_iff_eq_none]

theorem hasAvailable_iff (s : State) (p : LaneId) :
    hasAvailable s p = true ↔ ∃ k ∈ s.lanes[p].stock, k.reservation = none ∧ k.claim = none := by
  simp only [hasAvailable, List.any_eq_true, available_iff]

theorem changeFirst_append {test : StockEntry → Bool} {f : StockEntry → StockEntry} {pre post : List StockEntry}
    {k : StockEntry} (before : ∀ j ∈ pre, ¬test j = true) (here : test k = true) :
    changeFirst test f (pre ++ k :: post) = pre ++ f k :: post := by
  induction pre with
  | nil => rw [List.nil_append, changeFirst, if_pos here, List.nil_append]
  | cons j pre ih =>
    rw [List.cons_append, changeFirst, if_neg (before j List.mem_cons_self),
      ih fun i mem => before i (List.mem_cons_of_mem _ mem), List.cons_append]

/-- A fragment has a blank reserved in its lane's stock. -/
def Held (s : State) (c : CtxId) (e : LostEntry) : Prop :=
  ∃ p, e.lane = some p ∧ ∃ k ∈ s.lanes[p].stock, k.reservation = some { ctx := c, frag := e.frag }

theorem reservedFor_isSome_iff (s : State) (c : CtxId) (e : LostEntry) : (reservedFor s c e).isSome = true ↔ Held s c e := by
  cases lane : e.lane with
  | none => simp [reservedFor, Held, lane]
  | some p => simp [reservedFor, Held, lane, reservedEntry, List.find?_isSome]

theorem fragmentWaits_iff {s : State} {c : CtxId} {x : Context} (used : s.contexts[c] = some x) :
    fragmentWaits s c = true ↔ ¬∀ e ∈ x.lost, Held s c e := by
  simp only [fragmentWaits, used, List.any_eq_true, ← reservedFor_isSome_iff, not_forall, Option.isNone_iff_eq_none,
    Option.not_isSome_iff_eq_none, exists_prop]

theorem reservedBy_eq (k : StockEntry) (c : CtxId) : (if k.reservedBy c then { k with reservation := none } else k) =
    { k with reservation := if (k.reservation.any fun q => q.ctx == c) = true then none else k.reservation } := by
  unfold StockEntry.reservedBy
  cases h : k.reservation with
  | none =>
    rw [if_neg (by simp), Option.any_none, if_neg Bool.false_ne_true, ← h]
  | some q =>
    rw [Option.any_some]
    dsimp only
    split
    · rfl
    · rw [← h]

/-! ## One fragment of an attempt (R134) -/

theorem assignFragment_some {s : State} {c : CtxId} {x : Context} {i : Nat} {e : LostEntry} (used : s.contexts[c] = some x)
    (entry : x.lost[i]? = some e) : assignFragment c s i = match laneToReserve s e with
      | none => s
      | some p => reserveOn p c e.frag (modifyLost c i (fun e => { e with lane := some p }) s) := by
  simp only [assignFragment, used, entry] <;> rfl

theorem modifyLost_some {s : State} {c : CtxId} {x : Context} {i : Nat} {e : LostEntry} (f : LostEntry → LostEntry)
    (used : s.contexts[c] = some x) (entry : x.lost[i]? = some e) :
    modifyLost c i f s = { s with contexts := s.contexts.set c (some { x with lost := x.lost.set i (f e) }) } := by
  have changed : x.lost.modify i f = x.lost.set i (f e) := by
    rw [List.modify_eq_set_getElem?, entry]
    rfl
  rw [modifyLost, modifyContext_some _ _ _ _ used, changed]
  rfl

theorem laneToReserve_own {s : State} {e : LostEntry} {p : LaneId} (lane : e.lane = some p)
    (available : hasAvailable s p = true) : laneToReserve s e = some p := by
  simp only [laneToReserve, lane, available, if_true]

theorem laneToReserve_fallback {s : State} {e : LostEntry} {p q a b : LaneId} {before after : List LaneId}
    (lane : e.lane = none) (preferred : e.preferred = some q) (first : e.groupFirst = some a) (last : e.groupLast = some b)
    (order : fallbackOrder q a b = before ++ p :: after) (passed : ∀ r ∈ before, ¬hasAvailable s r = true)
    (available : hasAvailable s p = true) : laneToReserve s e = some p := by
  simp only [laneToReserve, lane, preferred, first, last, order]
  exact List.find?_eq_some_iff_append.2 ⟨available, before, after, rfl, fun r mem => by simpa using passed r mem⟩

theorem laneToReserve_none {s : State} {e : LostEntry} (own : ∀ p, e.lane = some p → ¬hasAvailable s p = true)
    (group : e.lane = none → ∀ q a b, e.preferred = some q → e.groupFirst = some a → e.groupLast = some b →
      ∀ r ∈ fallbackOrder q a b, ¬hasAvailable s r = true) : laneToReserve s e = none := by
  unfold laneToReserve
  split
  · rename_i p lane
    exact if_neg (own p lane)
  · rename_i lane
    split
    · rename_i q a b preferred first last
      exact List.find?_eq_none.2 (group lane q a b preferred first last)
    · rfl

/-! ## The waits of a lane (R136) -/

/-- A context's wait involves a lane (R136). -/
def Involves (s : State) (c : CtxId) (p : LaneId) : Prop := ∃ x, s.contexts[c] = some x ∧ ∃ e ∈ x.lost,
  e.lane = some p ∨ (e.lane = none ∧ ∃ a b, e.groupFirst = some a ∧ e.groupLast = some b ∧ a ≤ p ∧ p ≤ b)

theorem waitsOn_iff (x : Context) (p : LaneId) : x.waitsOn p = true ↔ ∃ e ∈ x.lost,
    e.lane = some p ∨ (e.lane = none ∧ ∃ a b, e.groupFirst = some a ∧ e.groupLast = some b ∧ a ≤ p ∧ p ≤ b) := by
  rw [Context.waitsOn, List.any_eq_true]
  refine exists_congr fun e => and_congr Iff.rfl ?_
  cases lane : e.lane <;> cases first : e.groupFirst <;> cases last : e.groupLast <;> simp

theorem involves_iff (s : State) (c : CtxId) (p : LaneId) : Involves s c p ↔ (match s.contexts[c] with
    | none => false
    | some x => x.waitsOn p) = true := by
  cases used : s.contexts[c] with
  | none => simp [Involves, used]
  | some x => simp [Involves, used, waitsOn_iff]

theorem mem_waitersOn (s : State) (p : LaneId) (c : CtxId) :
    c ∈ waitersOn s p ↔ c ∈ s.steering.waitList ∧ Involves s c p := by
  rw [waitersOn, List.mem_filter, involves_iff] <;> rfl

theorem mem_waitersDue (s : State) (c : CtxId) :
    c ∈ waitersDue s ↔ c ∈ s.steering.waitList ∧ ∃ p ∈ s.steering.retryDue, Involves s c p := by
  rw [waitersDue, List.mem_filter]
  refine and_congr Iff.rfl ?_
  cases used : s.contexts[c] with
  | none => simp [Involves, used]
  | some x => simp [Involves, used, List.any_eq_true, waitsOn_iff]

theorem blankAvailable_marks {s : State} {p : LaneId} (wanted : ∃ c ∈ s.steering.waitList, Involves s c p)
    (unmarked : p ∉ s.steering.retryDue) : blankAvailable p s =
      { s with steering := { s.steering with retryDue := s.steering.retryDue ++ [p] } } := by
  obtain ⟨c, mem, involved⟩ := wanted
  have waiters : waitersOn s p ≠ [] := List.ne_nil_of_mem ((mem_waitersOn s p c).2 ⟨mem, involved⟩)
  rw [blankAvailable, if_neg]
  simp [waiters, unmarked]

theorem blankAvailable_quiet {s : State} {p : LaneId}
    (h : (∀ c ∈ s.steering.waitList, ¬Involves s c p) ∨ p ∈ s.steering.retryDue) : blankAvailable p s = s := by
  rw [blankAvailable, if_pos]
  rcases h with none | marked
  · have waiters : waitersOn s p = [] := List.eq_nil_iff_forall_not_mem.2 fun c mem =>
      none c ((mem_waitersOn s p c).1 mem).1 ((mem_waitersOn s p c).1 mem).2
    simp [waiters]
  · simp [marked]

/-- A sublist of a list without repeats is what a filter by its members leaves. -/
theorem eq_filter_of_sublist {α : Type} {l m : List α} {p : α → Bool} (sub : l.Sublist m) (nodup : m.Nodup)
    (h : ∀ a ∈ m, a ∈ l ↔ p a = true) : l = m.filter p := by
  induction sub with
  | slnil => rfl
  | @cons l m a sub ih =>
    obtain ⟨fresh, nodup⟩ := List.nodup_cons.1 nodup
    have out : ¬p a = true := fun met => fresh (sub.subset ((h a List.mem_cons_self).2 met))
    rw [List.filter_cons_of_neg out]
    exact ih nodup fun b mem => h b (List.mem_cons_of_mem _ mem)
  | @cons_cons l m a sub ih =>
    obtain ⟨fresh, nodup⟩ := List.nodup_cons.1 nodup
    rw [List.filter_cons_of_pos ((h a List.mem_cons_self).1 List.mem_cons_self)]
    refine congrArg (a :: ·) (ih nodup fun b mem => ?_)
    have other : b ≠ a := fun e => fresh (e ▸ mem)
    rw [← h b (List.mem_cons_of_mem _ mem), List.mem_cons, or_iff_right other]

/-! ## A whole attempt (R134, R135) -/

/-- What the fragments' turns of an attempt keep of the context: its state and whether a solve is owed, its fragments, and
each lane once assigned. -/
def Assigning (x y : Context) : Prop :=
  y.state = x.state ∧ y.solveOwed = x.solveOwed ∧ y.lost.map LostEntry.frag = x.lost.map LostEntry.frag ∧
    ∀ (i : Nat) (p : LaneId), (x.lost[i]?).bind LostEntry.lane = some p → (y.lost[i]?).bind LostEntry.lane = some p

theorem laneToReserve_of_lane {s : State} {e : LostEntry} {p q : LaneId} (lane : e.lane = some p)
    (h : laneToReserve s e = some q) : q = p := by
  simp only [laneToReserve, lane] at h
  split at h
  · exact (Option.some.inj h).symm
  · cases h

theorem assignFragment_assigning {s : State} {c : CtxId} {x : Context} (used : s.contexts[c] = some x) (i : Nat) :
    ∃ y, (assignFragment c s i).contexts[c] = some y ∧ Assigning x y := by
  have same : Assigning x x := ⟨rfl, rfl, rfl, fun _ _ h => h⟩
  cases entry : x.lost[i]? with
  | none => exact ⟨x, by simp [assignFragment, used, entry], same⟩
  | some e =>
    rw [assignFragment_some used entry]
    cases lane : laneToReserve s e with
    | none => exact ⟨x, used, same⟩
    | some p =>
      refine ⟨{ x with lost := x.lost.set i { e with lane := some p } }, ?_, rfl, rfl, ?_, fun j q assigned => ?_⟩
      · dsimp only
        rw [(reserveOn_work _ _ _ _).contexts_eq, modifyLost_some _ used entry]
        exact Vector.getElem_set_self _
      · obtain ⟨lt, rfl⟩ := List.getElem?_eq_some_iff.1 entry
        rw [List.map_set]
        conv_rhs => rw [← List.set_getElem_self (as := x.lost.map LostEntry.frag) (i := i) (by simpa using lt)]
        simp
      · by_cases place : i = j
        · subst place
          rw [entry] at assigned
          obtain ⟨lt, -⟩ := List.getElem?_eq_some_iff.1 entry
          obtain rfl := laneToReserve_of_lane assigned lane
          simp [List.getElem?_set_self lt]
        · rwa [List.getElem?_set_ne place]

theorem Assigning.trans {x y z : Context} (a : Assigning x y) (b : Assigning y z) : Assigning x z :=
  ⟨b.1.trans a.1, b.2.1.trans a.2.1, b.2.2.1.trans a.2.2.1, fun i p h => b.2.2.2 i p (a.2.2.2 i p h)⟩

/-- The fragments' turns of an attempt. -/
def assignAll (c : CtxId) (x : Context) (s : State) : State := (List.range x.lost.length).foldl (assignFragment c) s

theorem assignAll_work (c : CtxId) (x : Context) (s : State) : Work [.edit, .marks] s (assignAll c x s) :=
  foldl_work (assignFragment_work c) _ s

theorem assignAll_assigning {s : State} {c : CtxId} {x : Context} (used : s.contexts[c] = some x) :
    ∃ y, (assignAll c x s).contexts[c] = some y ∧ Assigning x y := by
  suffices kept : ∀ (is : List Nat) (t : State) (y : Context), t.contexts[c] = some y → Assigning x y →
      ∃ z, (is.foldl (assignFragment c) t).contexts[c] = some z ∧ Assigning x z from
    kept _ s x used ⟨rfl, rfl, rfl, fun _ _ h => h⟩
  intro is
  induction is with
  | nil => exact fun t y used kept => ⟨y, used, kept⟩
  | cons i is ih =>
    intro t y used kept
    obtain ⟨z, used', kept'⟩ := assignFragment_assigning used i
    exact ih _ z used' (kept.trans kept')

theorem attemptSteering_some {s : State} {c : CtxId} {x : Context} (used : s.contexts[c] = some x)
    (steering : x.state = .steering) : attemptSteering c s =
      if fragmentWaits (assignAll c x s) c then waitSteering c (assignAll c x s) else leaveSteering c (assignAll c x s) := by
  simp only [attemptSteering, used, if_pos steering] <;> rfl

theorem dropReservations_eq (c : CtxId) (s : State) : dropReservations c s = { s with
    lanes := s.lanes.map fun l => { l with stock := l.stock.map fun k =>
      { k with reservation := if (k.reservation.any fun q => q.ctx == c) = true then none else k.reservation } } } := by
  simp only [dropReservations, reservedBy_eq]

theorem Act.now_eq {k : Kind} {s t : State} (a : Act k s t) (hk : k ≠ .clock) : t.now = s.now := by
  cases a with
  | clock => exact absurd rfl hk
  | halt _ c => rcases halt_cases c s with ⟨_, e⟩ | ⟨_, ev, os, _, e⟩ <;> rw [e]
  | _ => rfl

theorem Work.now_eq {K : List Kind} {s t : State} (w : Work K s t) (hK : ∀ k ∈ K, k ≠ Kind.clock := by decide) :
    t.now = s.now := w.same State.now fun k mem _ _ act => act.now_eq (hK k mem)

theorem leaveSteering_owed {s : State} {c : CtxId} {y : Context} (used : s.contexts[c] = some y)
    (owed : y.solveOwed = true) : leaveSteering c s = enterQueue c { s with
      steering := { s.steering with waitList := s.steering.waitList.erase c }
      contexts := s.contexts.set c (some { y with state := .solving, solveOwed := false }) } := by
  simp only [leaveSteering, used, owed, if_true]
  exact congrArg (enterQueue c) (modifyContext_some
    { s with steering := { s.steering with waitList := s.steering.waitList.erase c } } c _ y used)

theorem leaveSteering_active {s : State} {c : CtxId} {y : Context} {now interval : Nat} (used : s.contexts[c] = some y)
    (owed : y.solveOwed = false) (clock : s.now = now) (timer : s.control.timers.straggler = interval) : leaveSteering c s = { s with
      steering := { s.steering with waitList := s.steering.waitList.erase c }
      contexts := s.contexts.set c (some
        (({ y with state := .active, stragglerArmed := false, stragglerDeadline := none }).evalStraggler
          now interval false)) } := by
  subst clock timer
  have left : leaveSteering c s = enterActive c
      { s with steering := { s.steering with waitList := s.steering.waitList.erase c } } := by
    simp only [leaveSteering, used, owed, Bool.false_eq_true, if_false]
  exact left.trans <| enterActive_some (s := { s with steering := { s.steering with waitList := s.steering.waitList.erase c } }) used

theorem waitSteering_waiting {s : State} {c : CtxId} (waiting : c ∈ s.steering.waitList) :
    waitSteering c s = dropReservations c s := if_pos (List.contains_iff_mem.2 waiting)

theorem waitSteering_first {s : State} {c : CtxId} (fresh : c ∉ s.steering.waitList) :
    waitSteering c s = raise .laneStarved { dropReservations c s with
      steering := { s.steering with waitList := s.steering.waitList ++ [c] } } :=
  if_neg fun contains => fresh (List.contains_iff_mem.1 contains)

theorem evalStraggler_lost (x : Context) (now interval : Nat) (advanced : Bool) :
    (x.evalStraggler now interval advanced).lost = x.lost := by
  unfold Context.evalStraggler
  split
  · split <;> rfl
  · rfl

/-- What a context steered leaves behind. -/
theorem leaveSteering_leaves {s : State} {c : CtxId} {y : Context} (used : s.contexts[c] = some y) :
    ∃ z, (leaveSteering c s).contexts[c] = some z ∧ z.lost = y.lost ∧
      z.state = (if y.solveOwed = true then .solving else .active) ∧ (leaveSteering c s).lanes = s.lanes ∧
      (leaveSteering c s).steering.waitList = s.steering.waitList.erase c := by
  cases owed : y.solveOwed with
  | true =>
    rw [leaveSteering_owed used owed, if_pos rfl]
    have w := enterQueue_work c { s with
      steering := { s.steering with waitList := s.steering.waitList.erase c }
      contexts := s.contexts.set c (some { y with state := .solving, solveOwed := false }) }
    exact ⟨_, (congrArg (·[c]) w.contexts_eq).trans (Vector.getElem_set_self _), rfl, rfl, w.lanes_eq,
      congrArg (·.waitList) w.steering_eq⟩
  | false =>
    rw [leaveSteering_active used owed (Eq.refl s.now) (Eq.refl s.control.timers.straggler), if_neg Bool.false_ne_true]
    refine ⟨({ y with state := .active, stragglerArmed := false, stragglerDeadline := none }).evalStraggler
      s.now s.control.timers.straggler false, Vector.getElem_set_self _, ?_, ?_, rfl, rfl⟩
    · rw [evalStraggler_lost]
    · rw [evalStraggler_state]

theorem mem_dropReservations {s : State} {c : CtxId} {p : LaneId} {k : StockEntry} {f : Nat}
    (mem : k ∈ ((dropReservations c s).lanes[p]).stock) : k.reservation ≠ some { ctx := c, frag := f } := by
  rw [dropReservations_eq] at mem
  simp only [Fin.getElem_fin, Vector.getElem_map, List.mem_map] at mem
  obtain ⟨j, -, rfl⟩ := mem
  dsimp only
  split
  · exact nofun
  · next other =>
    intro same
    rw [same] at other
    simp at other

/-- What a context that waits leaves behind. -/
theorem waitSteering_leaves (c : CtxId) (s : State) : (waitSteering c s).contexts = s.contexts ∧
    (waitSteering c s).lanes = (dropReservations c s).lanes ∧ c ∈ (waitSteering c s).steering.waitList := by
  by_cases waiting : c ∈ s.steering.waitList
  · rw [waitSteering_waiting waiting]
    exact ⟨rfl, rfl, waiting⟩
  · rw [waitSteering_first waiting]
    refine ⟨(raise_work _ _).contexts_eq, (raise_work _ _).lanes_eq, ?_⟩
    rw [(raise_work _ _).steering_eq]
    exact List.mem_append_right _ List.mem_cons_self

theorem assignFragment_reserves {s : State} {c : CtxId} {x : Context} {i : Nat} {e : LostEntry} {p : LaneId}
    {pre post : List StockEntry} {k : StockEntry} (used : s.contexts[c] = some x) (entry : x.lost[i]? = some e)
    (lane : laneToReserve s e = some p) (stock : s.lanes[p].stock = pre ++ k :: post)
    (before : ∀ j ∈ pre, ¬j.available = true) (free : k.available = true) : assignFragment c s i = { s with
      lanes := s.lanes.set p { s.lanes[p] with
        stock := pre ++ { k with reservation := some { ctx := c, frag := e.frag } } :: post }
      contexts := s.contexts.set c (some { x with lost := x.lost.set i { e with lane := some p } }) } := by
  simp only [assignFragment_some used entry, lane, reserveOn, modifyStock, modifyLost_some _ used entry, stock,
    changeFirst_append before free]
  rfl

/-- Settles O45: the turn of one fragment by the lane it can reserve on (`assignFragment_some`), an attempt by its
fragments' turns and what they keep (`assignAll_assigning`), and the retries of an event by the waiters of its lanes
(`mem_waitersDue`). -/
theorem steeringAttemptsAndRetries : Obligations.SteeringAttemptsAndRetries := by
  unfold Obligations.SteeringAttemptsAndRetries
  have bare_iff : ∀ (s : State) (p : LaneId), (∀ k ∈ s.lanes[p].stock, ¬(k.reservation = none ∧ k.claim = none)) →
      ¬hasAvailable s p = true := fun s p bare available => by
    obtain ⟨k, mem, free⟩ := (hasAvailable_iff s p).1 available
    exact bare k mem free
  refine ⟨fun s c x i e used entry => ⟨fun p pre k post takes stock before free => ?_, fun own group => ?_⟩,
    fun s c x used steering => ?_, fun s c x used steering nodup => ?_, fun s p => ⟨blankAvailable_marks, blankAvailable_quiet⟩,
    fun s waiters sub nodup due => ?_, fun s p engine marked waiters sub nodup involved => ?_⟩
  · have available : hasAvailable s p = true := (hasAvailable_iff s p).2 ⟨k, stock ▸ List.mem_append_right _ List.mem_cons_self, free⟩
    refine assignFragment_reserves used entry ?_ stock (fun j mem met => before j mem ((available_iff j).1 met))
      ((available_iff k).2 free)
    rcases takes with lane | ⟨lane, q, a, b, pre', post', preferred, first, last, order, passed⟩
    · exact laneToReserve_own lane available
    · exact laneToReserve_fallback lane preferred first last order (fun r mem => bare_iff s r (passed r mem)) available
  · rw [assignFragment_some used entry, laneToReserve_none (fun p lane => bare_iff s p (own p lane))
      fun lane q a b preferred first last r mem => bare_iff s r (group lane q a b preferred first last r mem)]
  · obtain ⟨y, used', -, owed, -⟩ := assignAll_assigning used
    have w := assignAll_work c x s
    refine ⟨y, used', fun held solve => ?_, fun held solve => ?_, fun waits waiting => ?_, fun waits fresh => ?_⟩
    · rw [attemptSteering_some used steering, if_neg fun waits => (fragmentWaits_iff used').1 waits held,
        leaveSteering_owed used' (owed.trans solve)]
      rfl
    · rw [attemptSteering_some used steering, if_neg fun waits => (fragmentWaits_iff used').1 waits held,
        leaveSteering_active used' (owed.trans solve) w.now_eq (congrArg (·.timers.straggler) w.control_eq)]
      rfl
    · rw [attemptSteering_some used steering, if_pos ((fragmentWaits_iff used').2 waits),
        waitSteering_waiting (w.steering_eq ▸ waiting), dropReservations_eq]
      rfl
    · rw [attemptSteering_some used steering, if_pos ((fragmentWaits_iff used').2 waits),
        waitSteering_first (w.steering_eq ▸ fresh), dropReservations_eq]
      rfl
  · obtain ⟨y, used', state, owed, frags, lanes⟩ := assignAll_assigning used
    rw [attemptSteering_some used steering]
    by_cases waits : fragmentWaits (assignAll c x s) c = true
    · obtain ⟨contexts, stocks, waiting⟩ := waitSteering_leaves c (assignAll c x s)
      rw [if_pos waits, contexts, stocks]
      exact ⟨y, used', frags, lanes, Or.inr ⟨fun p k mem f => mem_dropReservations mem, waiting, state.trans steering⟩⟩
    · obtain ⟨z, left, lost, state', stocks, waiting⟩ := leaveSteering_leaves used'
      rw [if_neg waits, stocks, waiting, (assignAll_work c x s).steering_eq]
      refine ⟨z, left, lost ▸ frags, lost ▸ lanes, Or.inl ⟨?_, nodup.not_mem_erase, owed ▸ state'⟩⟩
      rw [lost]
      exact not_not.1 fun bare => waits ((fragmentWaits_iff used').2 bare)
  · rw [eq_filter_of_sublist sub nodup (p := fun c => decide (c ∈ waitersDue s)) fun c mem => by
      rw [due c mem, decide_eq_true_iff, mem_waitersDue]
      exact (and_iff_right mem).symm]
    rw [arbitrate, retryWaiting, ← eq_filter_of_sublist (l := waitersDue s) List.filter_sublist nodup fun c _ =>
      decide_eq_true_iff.symm]
  · have walking : s.walking = true := by rcases engine with e | e <;> simp [State.walking, e]
    simp only [exec, execSteeringRetry, walking, List.contains_iff_mem.2 marked, Bool.and_self, if_true]
    rw [eq_filter_of_sublist sub nodup (p := fun c => decide (c ∈ waitersOn { s with
      steering := { s.steering with retryDue := s.steering.retryDue.erase p } } p)) fun c mem => by
        rw [involved c mem, decide_eq_true_iff, mem_waitersOn]
        exact (and_iff_right mem).symm]
    rw [← eq_filter_of_sublist (l := waitersOn { s with
      steering := { s.steering with retryDue := s.steering.retryDue.erase p } } p) List.filter_sublist nodup fun c _ =>
        decide_eq_true_iff.symm]

end Sys2Proof.Proofs

/-! PROOFS. What a re-evaluation leaves: the ready lists and the starved marks (R109 to R111, R148). -/

namespace Sys2Proof.Proofs

open Sys2Proof Sys2Proof.Machine

/-! ## Readiness and starvation by their conditions -/

theorem mem_members {x : Context} {k : Candidate} : k ∈ x.members ↔ k ∈ x.roster ∧ k.frag ∈ x.basis := by
  rw [Context.members, List.mem_filter, List.contains_iff_mem]

theorem survivorsLanded_iff (x : Context) : x.survivorsLanded = true ↔ ∀ k ∈ x.roster, k.frag ∈ x.basis →
    ∃ r ∈ k.ranges, r.first ≤ x.front ∧ x.front < r.first + r.count := by
  simp only [Context.survivorsLanded, List.all_eq_true, landed_iff, mem_members, and_imp]

theorem reservedFor_isNone {s : State} {c : CtxId} {e : LostEntry} {p : LaneId} (lane : e.lane = some p) :
    (reservedFor s c e).isNone =
      s.lanes[p].stock.all fun k => k.reservation != some { ctx := c, frag := e.frag } := by
  rw [Bool.eq_iff_iff, Option.isNone_iff_eq_none, reservedFor, lane, Option.bind_some, reservedEntry, List.find?_eq_none,
    List.all_eq_true]
  simp

theorem needingOn_eq (s : State) (c : CtxId) (x : Context) (p : LaneId) : needingOn s c x p =
    x.lost.countP fun g => g.lane == some p && g.openRecord.isNone &&
      s.lanes[p].stock.all fun k => k.reservation != some { ctx := c, frag := g.frag } := by
  refine List.countP_congr fun g _ => ?_
  by_cases lane : g.lane = some p
  · rw [reservedFor_isNone lane]
  · simp [lane]

theorem canReceive_iff (s : State) (c : CtxId) (x : Context) (e : LostEntry) : canReceive s c x e = true ↔
    ∃ p, e.lane = some p ∧ (e.openRecord.isSome = true ∨
      (∃ k ∈ s.lanes[p].stock, k.reservation = some { ctx := c, frag := e.frag }) ∨
      needingOn s c x p ≤ availableCount s p) := by
  cases lane : e.lane with
  | none => simp [canReceive, lane]
  | some p =>
    have held := reservedFor_isSome_iff s c e
    simp only [Held, lane, Option.some.injEq, exists_eq_left'] at held
    simp only [canReceive, lane, Bool.or_eq_true, decide_eq_true_iff, held, or_assoc, Option.some.injEq, exists_eq_left']

theorem isReady_iff {s : State} {c : CtxId} {x : Context} (used : s.contexts[c] = some x) : isReady s c = true ↔
    x.state = .active ∧ x.survivorsLanded = true ∧ ∀ e ∈ x.lost, canReceive s c x e = true := by
  simp only [isReady, used, Bool.and_eq_true, beq_iff_eq, List.all_eq_true, and_assoc]

theorem isReady_free {s : State} {c : CtxId} (free : s.contexts[c] = none) : isReady s c = false := by
  simp only [isReady, free]

theorem isStarved_iff (s : State) (c : CtxId) (x : Context) (e : LostEntry) : isStarved s c x e = true ↔
    x.state = .active ∧ x.survivorsLanded = true ∧ e.openRecord = none ∧ ∃ p, e.lane = some p ∧
      (∀ k ∈ s.lanes[p].stock, k.reservation ≠ some { ctx := c, frag := e.frag }) ∧
      availableCount s p < needingOn s c x p := by
  cases lane : e.lane with
  | none => simp [isStarved, lane]
  | some p =>
    simp only [isStarved, lane, reservedFor_isNone lane, Bool.and_eq_true, beq_iff_eq, decide_eq_true_iff, List.all_eq_true,
      bne_iff_ne, Option.isNone_iff_eq_none, and_assoc, Option.some.injEq, exists_eq_left']

/-- Readiness is read from the context and the stocks. -/
theorem isReady_congr {s t : State} {c : CtxId} (contexts : t.contexts[c] = s.contexts[c]) (lanes : t.lanes = s.lanes) :
    isReady t c = isReady s c := by
  cases used : s.contexts[c] with
  | none => rw [isReady_free used, isReady_free (contexts.trans used)]
  | some x =>
    rw [Bool.eq_iff_iff, isReady_iff used, isReady_iff (contexts.trans used)]
    simp only [canReceive_iff, needingOn_eq, availableCount, lanes]

/-- Two contexts that differ in starved marks alone. -/
def SameButMarks (x y : Context) : Prop := y.state = x.state ∧ y.survivorsLanded = x.survivorsLanded ∧
  y.lost.map (fun e => { e with starved := false }) = x.lost.map fun e => { e with starved := false }

theorem countP_of_unmarked {p : LostEntry → Bool} (blind : ∀ e : LostEntry, p { e with starved := false } = p e)
    {l m : List LostEntry} (h : m.map (fun e => { e with starved := false }) = l.map fun e => { e with starved := false }) :
    m.countP p = l.countP p := by
  have unmark : ∀ l : List LostEntry, l.countP p = (l.map fun e => { e with starved := false }).countP p := fun l => by
    rw [List.countP_map]
    exact List.countP_congr fun e _ => by rw [Function.comp, blind]
  rw [unmark m, h, ← unmark]

/-- Starvation does not read the marks. -/
theorem isStarved_congr {s t : State} {c : CtxId} {x y : Context} {e : LostEntry} (lanes : t.lanes = s.lanes)
    (same : SameButMarks x y) : isStarved t c y e = isStarved s c x e := by
  obtain ⟨state, landed, lost⟩ := same
  have needing : ∀ p, needingOn t c y p = needingOn s c x p := fun p => by
    rw [needingOn_eq, needingOn_eq, lanes]
    exact countP_of_unmarked (fun _ => rfl) lost
  rw [Bool.eq_iff_iff, isStarved_iff, isStarved_iff, state, landed, lanes]
  simp only [needing, availableCount, lanes]

/-! ## One context's fragments (R148) -/

/-- A fragment's mark after a re-evaluation. -/
def markOf (s : State) (c : CtxId) (x : Context) (e : LostEntry) : LostEntry :=
  { e with starved := e.starved || isStarved s c x e }

/-- A fragment found starved with its mark clear. -/
def newlyStarved (s : State) (c : CtxId) (x : Context) (e : LostEntry) : Bool := !e.starved && isStarved s c x e

/-- LANE_STARVED set, when something was found. -/
def starveIf (b : Bool) (s : State) : State := if b then raise .laneStarved s else s

theorem raise_with (b : EventBit) (s : State) (v : Vector (Option Context) 48) (a : Arbiter) :
    raise b { s with contexts := v, arbiter := a } = { raise b s with contexts := v, arbiter := a } := by
  unfold raise
  dsimp only
  split
  · rfl
  · split
    · unfold announce
      dsimp only
      split <;> [skip; rfl]
      unfold sendMessage
      split <;> rfl
    · rfl

theorem raise_raise (b : EventBit) (s : State) : raise b (raise b s) = raise b s := by
  conv_lhs => rw [raise, if_pos (raise_sets b s)]

/-- The marks of the first fragments set. -/
def marksTo (s : State) (c : CtxId) (x : Context) (n : Nat) : List LostEntry :=
  (x.lost.take n).map (markOf s c x) ++ x.lost.drop n

theorem marksTo_sameButMarks (s : State) (c : CtxId) (x : Context) (n : Nat) :
    SameButMarks x { x with lost := marksTo s c x n } := by
  refine ⟨rfl, rfl, ?_⟩
  dsimp only
  conv_rhs => rw [← List.take_append_drop n x.lost]
  rw [marksTo, List.map_append, List.map_append, List.map_map]
  rfl

theorem markOf_of_not_new {s : State} {c : CtxId} {x : Context} {e : LostEntry} (h : newlyStarved s c x e = false) :
    markOf s c x e = e := by
  have same : (e.starved || isStarved s c x e) = e.starved := by
    cases e' : e.starved <;> simp_all [newlyStarved]
  rw [markOf, same]

theorem starveIf_or (a b : Bool) (s : State) : starveIf b (starveIf a s) = starveIf (a || b) s := by
  cases a <;> cases b <;> simp [starveIf, raise_raise]

theorem starveIf_with (b : Bool) (s : State) (v : Vector (Option Context) 48) (a : Arbiter) :
    starveIf b { s with contexts := v, arbiter := a } = { starveIf b s with contexts := v, arbiter := a } := by
  cases b
  · rfl
  · exact raise_with _ _ _ _

theorem starveIf_lanes (b : Bool) (s : State) : (starveIf b s).lanes = s.lanes := by
  cases b
  · rfl
  · exact (raise_work _ s).lanes_eq

theorem starveIf_arbiter (b : Bool) (s : State) : (starveIf b s).arbiter = s.arbiter := by
  cases b
  · rfl
  · exact (raise_work _ s).arbiter_eq

theorem starveIf_contexts (b : Bool) (s : State) (v : Vector (Option Context) 48) :
    starveIf b { s with contexts := v } = { starveIf b s with contexts := v } :=
  (starveIf_with b s v s.arbiter).trans
    (congrArg (fun a => { starveIf b s with contexts := v, arbiter := a }) (starveIf_arbiter b s).symm)

theorem set_same {s : State} {c : CtxId} {x : Context} (used : s.contexts[c] = some x) :
    s.contexts.set c (some x) = s.contexts := by
  rw [← used]
  exact Vector.set_getElem_self _

theorem markStarved_eq {s : State} {c : CtxId} {x : Context} {i : Nat} {e : LostEntry} (used : s.contexts[c] = some x)
    (entry : x.lost[i]? = some e) : markStarved c i s = { starveIf (newlyStarved s c x e) s with
      contexts := s.contexts.set c (some { x with lost := x.lost.set i (markOf s c x e) }) } := by
  have step : markStarved c i s = if newlyStarved s c x e = true then
      raise .laneStarved (modifyLost c i (fun e => { e with starved := true }) s) else s := by
    simp only [markStarved, used, entry, newlyStarved, Bool.and_comm] <;> rfl
  rw [step]
  cases new : newlyStarved s c x e with
  | true =>
    have mark : markOf s c x e = { e with starved := true } := by
      obtain ⟨-, starved⟩ := Bool.and_eq_true_iff.1 new
      rw [markOf, starved, Bool.or_true]
    rw [if_pos rfl, modifyLost_some _ used entry, mark]
    exact starveIf_contexts true s _
  | false =>
    obtain ⟨lt, here⟩ := List.getElem?_eq_some_iff.1 entry
    rw [if_neg Bool.false_ne_true, markOf_of_not_new new, ← here, List.set_getElem_self]
    simp only [set_same used]
    rfl

theorem marksTo_set {s : State} {c : CtxId} {x : Context} {n : Nat} (lt : n < x.lost.length) :
    (marksTo s c x n).set n (markOf s c x x.lost[n]) = marksTo s c x (n + 1) := by
  have len : ((x.lost.take n).map (markOf s c x)).length = n := by simp; omega
  rw [marksTo, marksTo, List.set_append_right _ _ (by omega), len, Nat.sub_self, List.drop_eq_getElem_cons lt,
    List.set_cons_zero, List.take_succ_eq_append_getElem lt, List.map_append, List.append_assoc]
  rfl

theorem marksTo_getElem {s : State} {c : CtxId} {x : Context} {n : Nat} (lt : n < x.lost.length) :
    (marksTo s c x n)[n]? = some x.lost[n] := by
  have len : ((x.lost.take n).map (markOf s c x)).length = n := by simp; omega
  rw [marksTo, List.getElem?_append_right (by omega), len, Nat.sub_self, List.drop_eq_getElem_cons lt]
  rfl

/-- A context's fragments tested for starvation, one after another. -/
theorem markAll_eq {s : State} {c : CtxId} {x : Context} (used : s.contexts[c] = some x) {n : Nat}
    (bound : n ≤ x.lost.length) : (List.range n).foldl (fun u i => markStarved c i u) s =
      { starveIf ((x.lost.take n).any (newlyStarved s c x)) s with
        contexts := s.contexts.set c (some { x with lost := marksTo s c x n }) } := by
  induction n with
  | zero =>
    have same : marksTo s c x 0 = x.lost := rfl
    rw [same, set_same used]
    rfl
  | succ n ih =>
    have lt : n < x.lost.length := bound
    rw [List.range_succ, List.foldl_append, ih (Nat.le_of_lt lt), List.foldl_cons, List.foldl_nil]
    have starved : ∀ e, isStarved { starveIf ((x.lost.take n).any (newlyStarved s c x)) s with
        contexts := s.contexts.set c (some { x with lost := marksTo s c x n }) } c { x with lost := marksTo s c x n } e =
          isStarved s c x e := fun e =>
      isStarved_congr (starveIf_lanes _ s) (marksTo_sameButMarks s c x n)
    rw [markStarved_eq (Vector.getElem_set_self _) (marksTo_getElem lt)]
    simp only [newlyStarved, markOf, starved]
    rw [List.take_succ_eq_append_getElem lt, List.any_append, ← starveIf_or, ← marksTo_set lt]
    rw [starveIf_contexts]
    simp only [Vector.set_set, newlyStarved, List.any_cons, List.any_nil, Bool.or_false]
    rfl

theorem markAll_whole {s : State} {c : CtxId} {x : Context} (used : s.contexts[c] = some x) :
    (List.range x.lost.length).foldl (fun u i => markStarved c i u) s = { starveIf (x.lost.any (newlyStarved s c x)) s with
      contexts := s.contexts.set c (some { x with lost := x.lost.map (markOf s c x) }) } := by
  rw [markAll_eq used le_rfl, List.take_length, marksTo, List.take_length, List.drop_length, List.append_nil]

/-! ## All contexts in turn (R110, R111) -/

/-- A property of the items done so far, through a fold over a list without repeats. -/
theorem foldl_nodup {α σ : Type} {P : List α → σ → Prop} {f : σ → α → σ}
    (step : ∀ (done : List α) (a : α) (t : σ), done.Nodup → a ∉ done → P done t → P (done ++ [a]) (f t a))
    {s : σ} (start : P [] s) (l : List α) (nodup : l.Nodup) : P l (l.foldl f s) := by
  induction l using List.reverseRecOn with
  | nil => exact start
  | append_singleton l a ih =>
    rw [List.nodup_append_comm, List.singleton_append, List.nodup_cons] at nodup
    rw [List.foldl_append]
    exact step l a _ nodup.2 nodup.1 (ih nodup.2)

/-- A context after a re-evaluation. -/
def remarked (s : State) (c : CtxId) (x : Context) : Context :=
  if s.arbiter.grantee = some c then x else { x with lost := x.lost.map (markOf s c x) }

/-- A re-evaluation finds a fragment of the context starved whose mark is clear. -/
def findsStarved (s : State) (c : CtxId) : Bool :=
  s.arbiter.grantee != some c && (s.contexts[c]).any fun x => x.lost.any (newlyStarved s c x)

/-- A re-evaluation leaves the context on the ready list it stands on. -/
def staysReady (s : State) (c : CtxId) : Bool :=
  (s.contexts[c]).isNone || s.arbiter.grantee == some c || isReady s c

/-- A re-evaluation appends the context to the ready list of a class. -/
def turnsReady (s : State) (i : Fin 4) (c : CtxId) : Bool :=
  ((s.contexts[c]).any fun x => min x.urgency 3 == i.val) && s.arbiter.grantee != some c && isReady s c &&
    !s.readyContexts.contains c

/-- The state reached when some contexts have been re-evaluated. -/
structure Reevaluated (s : State) (done : List CtxId) (t : State) : Prop where
  contexts : ∀ c : CtxId, t.contexts[c] = if c ∈ done then (s.contexts[c]).map (remarked s c) else s.contexts[c]
  ready : ∀ i : Fin 4, t.arbiter.ready[i] =
    (s.arbiter.ready[i].filter fun c => !done.contains c || staysReady s c) ++ done.filter (turnsReady s i)
  rest : t = { starveIf (done.any (findsStarved s)) s with
    contexts := t.contexts, arbiter := { s.arbiter with ready := t.arbiter.ready } }

theorem isStarved_of_lanes {s t : State} (lanes : t.lanes = s.lanes) (c : CtxId) (x : Context) :
    isStarved t c x = isStarved s c x := funext fun _ => isStarved_congr lanes ⟨rfl, rfl, rfl⟩

theorem newlyStarved_congr {s t : State} {c : CtxId} {x : Context} (h : isStarved t c x = isStarved s c x) :
    newlyStarved t c x = newlyStarved s c x := funext fun e => by simp only [newlyStarved, h]

theorem markOf_congr {s t : State} {c : CtxId} {x : Context} (h : isStarved t c x = isStarved s c x) :
    markOf t c x = markOf s c x := funext fun e => by simp only [markOf, h]

theorem reevaluateOne_of_not_looked {s : State} {c : CtxId} (h : s.contexts[c] = none ∨ s.arbiter.grantee = some c) :
    reevaluateOne s c = s := by
  unfold reevaluateOne
  split
  · rfl
  · next x used =>
    rcases h with free | grantee
    · rw [used] at free
      cases free
    · exact if_pos grantee

/-- The ready lists after a look at one context. -/
def readyAfter (s : State) (c : CtxId) (x : Context) : Vector (List CtxId) 4 :=
  if isReady s c then
    if onReadyList s c then s.arbiter.ready
    else s.arbiter.ready.set (classIndex x.urgency) (s.arbiter.ready[classIndex x.urgency] ++ [c])
  else if onReadyList s c then s.arbiter.ready.map fun l => l.erase c else s.arbiter.ready

theorem reevaluateOne_eq {s : State} {c : CtxId} {x : Context} (used : s.contexts[c] = some x)
    (other : s.arbiter.grantee ≠ some c) : reevaluateOne s c = { starveIf (x.lost.any (newlyStarved s c x)) s with
      contexts := s.contexts.set c (some { x with lost := x.lost.map (markOf s c x) })
      arbiter := { s.arbiter with ready := readyAfter s c x } } := by
  have listed : (if isReady s c then (if onReadyList s c then s else makeReady c x.urgency s)
      else if onReadyList s c then unready c s else s) = { s with arbiter := { s.arbiter with ready := readyAfter s c x } } := by
    unfold readyAfter
    split <;> split <;> rfl
  have step : reevaluateOne s c = (List.range x.lost.length).foldl (fun u i => markStarved c i u)
      { s with arbiter := { s.arbiter with ready := readyAfter s c x } } := by
    rw [← listed]
    simp only [reevaluateOne, used, if_neg other]
  have starved : isStarved { s with arbiter := { s.arbiter with ready := readyAfter s c x } } c x = isStarved s c x :=
    isStarved_of_lanes rfl c x
  rw [step, markAll_whole (x := x) (by exact used)]
  rw [newlyStarved_congr starved, markOf_congr starved]
  have raised := starveIf_with (x.lost.any (newlyStarved s c x)) s s.contexts { s.arbiter with ready := readyAfter s c x }
  exact congrArg (fun u : State => { u with
    contexts := s.contexts.set c (some { x with lost := x.lost.map (markOf s c x) }) }) raised

theorem starveIf_rest {s t : State} {a b : Bool} {v v' : Vector (Option Context) 48} {r r' : Arbiter}
    (h : t = { starveIf a s with contexts := v, arbiter := r }) :
    { starveIf b t with contexts := v', arbiter := r' } = { starveIf (a || b) s with contexts := v', arbiter := r' } := by
  rw [h, starveIf_with, starveIf_or]

section
variable {s t : State} {done : List CtxId} {c : CtxId}

theorem Reevaluated.lanes (h : Reevaluated s done t) : t.lanes = s.lanes := by
  rw [h.rest]
  exact starveIf_lanes _ s

theorem Reevaluated.grantee (h : Reevaluated s done t) : t.arbiter.grantee = s.arbiter.grantee := by
  rw [h.rest]

theorem Reevaluated.mem_ready (h : Reevaluated s done t) (next : c ∉ done) (i : Fin 4) :
    c ∈ t.arbiter.ready[i] ↔ c ∈ s.arbiter.ready[i] := by
  simp [h.ready, next]

theorem mem_ready_iff : onReadyList s c = true ↔ ∃ i : Fin 4, c ∈ s.arbiter.ready[i] := by
  rw [← mem_readyContexts, State.readyContexts, List.mem_flatten]
  refine ⟨fun ⟨l, mem, here⟩ => ?_, fun ⟨i, here⟩ => ⟨_, Vector.mem_toList_iff.2 (Vector.getElem_mem i.isLt), here⟩⟩
  obtain ⟨i, lt, rfl⟩ := Vector.mem_iff_getElem.1 (Vector.mem_toList_iff.1 mem)
  exact ⟨⟨i, lt⟩, here⟩

theorem Reevaluated.onReadyList (h : Reevaluated s done t) (next : c ∉ done) :
    onReadyList t c = onReadyList s c := by
  rw [Bool.eq_iff_iff, mem_ready_iff, mem_ready_iff]
  exact exists_congr fun i => h.mem_ready next i

/-- The ready lists wanted after one more context, from those before it. -/
theorem Reevaluated.ready_next (h : Reevaluated s done t) (next : c ∉ done) (i : Fin 4) :
    (s.arbiter.ready[i].filter fun d => !(done ++ [c]).contains d || staysReady s d) ++
        (done ++ [c]).filter (turnsReady s i) =
      (t.arbiter.ready[i].filter fun d => d != c || staysReady s c) ++ if turnsReady s i c then [c] else [] := by
  have first : (s.arbiter.ready[i].filter fun d => !(done ++ [c]).contains d || staysReady s d) =
      (s.arbiter.ready[i].filter fun d => !done.contains d || staysReady s d).filter fun d => d != c || staysReady s c := by
    rw [List.filter_filter]
    refine List.filter_congr fun d _ => ?_
    by_cases same : d = c
    · subst same
      simp [next]
    · simp [same]
  have second : (done.filter (turnsReady s i)).filter (fun d => d != c || staysReady s c) = done.filter (turnsReady s i) :=
    List.filter_eq_self.2 fun d mem => by
      have other : d ≠ c := fun e => next (e ▸ (List.mem_filter.1 mem).1)
      simp [other]
  rw [first, h.ready i, List.filter_append, List.filter_append (l₂ := done.filter _), second, List.filter_singleton,
    Bool.cond_eq_ite, List.append_assoc]

theorem filter_ne_eq_erase {l m : List CtxId} (nodup : l.Nodup) (out : c ∉ m) :
    (l ++ m).filter (fun d => d != c) = (l ++ m).erase c := by
  have kept : m.filter (fun d => d != c) = m := List.filter_eq_self.2 fun d mem =>
    bne_iff_ne.2 fun e : d = c => out (e ▸ mem)
  rw [List.filter_append, List.erase_append, ← nodup.erase_eq_filter, List.erase_of_not_mem out, kept]
  split
  · rfl
  · next absent => rw [List.erase_of_not_mem absent]

end

theorem getElem_set_ctx {v : Vector (Option Context) 48} (c d : CtxId) (o : Option Context) :
    (v.set c o)[d] = if c = d then o else v[d] := by
  simp [Vector.getElem_set, Fin.ext_iff]

/-- The ready lists after a look at one context, one list of them. -/
theorem readyAfter_getElem {s t : State} {done : List CtxId} {c : CtxId} {x : Context} (h : Reevaluated s done t)
    (nodup : s.readyContexts.Nodup) (next : c ∉ done) (used : s.contexts[c] = some x) (other : s.arbiter.grantee ≠ some c)
    (i : Fin 4) : (readyAfter t c x)[i] =
      (t.arbiter.ready[i].filter fun d => d != c || staysReady s c) ++ if turnsReady s i c then [c] else [] := by
  have same : isReady t c = isReady s c := isReady_congr (by rw [h.contexts, if_neg next]) h.lanes
  have stays : staysReady s c = isReady s c := by simp [staysReady, used, other]
  have listed : (s.readyContexts.contains c) = onReadyList s c := by
    rw [Bool.eq_iff_iff, List.contains_iff_mem, mem_readyContexts]
  have turns : turnsReady s i c = ((min x.urgency 3 == i.val) && isReady s c && !onReadyList s c) := by
    simp only [turnsReady, used, listed, Option.any_some, bne_iff_ne.2 other, Bool.and_true]
  rw [readyAfter, same, h.onReadyList next, stays, turns]
  cases ready : isReady s c <;> cases on : onReadyList s c
  · have absent : c ∉ t.arbiter.ready[i] := fun mem => by
      have : onReadyList s c = true := mem_ready_iff.2 ⟨i, (h.mem_ready next i).1 mem⟩
      rw [on] at this
      cases this
    have kept : t.arbiter.ready[i].filter (fun d => d != c) = t.arbiter.ready[i] :=
      List.filter_eq_self.2 fun d mem => by
        have : d ≠ c := fun e => absent (e ▸ mem)
        simp [this]
    simp only [Bool.or_false, kept, Bool.false_eq_true, if_false, Bool.and_false, Bool.false_and, List.append_nil]
  · have part : s.arbiter.ready[i].Nodup := (List.nodup_flatten.1 nodup).1 _
      (Vector.mem_toList_iff.2 (Vector.getElem_mem i.isLt))
    have out : c ∉ done.filter (turnsReady s i) := fun mem => next (List.mem_filter.1 mem).1
    have erased := filter_ne_eq_erase (part.filter fun d => !done.contains d || staysReady s d) out
    rw [← h.ready i] at erased
    simpa using erased.symm
  · by_cases place : classIndex x.urgency = i
    · subst place
      simp [classIndex]
    · have elsewhere : min x.urgency 3 ≠ i.val := fun e => place (Fin.ext e)
      simp [elsewhere, classIndex]
  · simp

theorem reevaluated_step {s t : State} {done : List CtxId} {c : CtxId} (nodup : s.readyContexts.Nodup) (next : c ∉ done)
    (h : Reevaluated s done t) : Reevaluated s (done ++ [c]) (reevaluateOne t c) := by
  have here : t.contexts[c] = s.contexts[c] := by rw [h.contexts, if_neg next]
  have spread : ∀ d : CtxId, d ∈ done ++ [c] ↔ d ∈ done ∨ d = c := fun d => by simp
  by_cases looked : s.contexts[c] = none ∨ s.arbiter.grantee = some c
  · have stays : staysReady s c = true := by rcases looked with e | e <;> simp [staysReady, e]
    have turns : ∀ i, turnsReady s i c = false := fun i => by rcases looked with e | e <;> simp [turnsReady, e]
    have finds : findsStarved s c = false := by rcases looked with e | e <;> simp [findsStarved, e]
    rw [reevaluateOne_of_not_looked (looked.imp here.trans h.grantee.trans)]
    refine ⟨fun d => ?_, fun i => ?_, ?_⟩
    · rw [h.contexts]
      by_cases same : d = c
      · subst same
        rw [if_neg next, if_pos ((spread d).2 (Or.inr rfl))]
        rcases looked with e | e
        · rw [e, Option.map_none]
        · have unchanged : remarked s d = id := funext fun x => if_pos e
          rw [unchanged, Option.map_id_fun, id]
      · simp only [spread, same, or_false]
    · rw [h.ready_next next i, turns i]
      simp [stays]
    · rw [List.any_append, List.any_cons, finds]
      simpa using h.rest
  · obtain ⟨inUse, other⟩ := not_or.1 looked
    obtain ⟨x, used⟩ := Option.ne_none_iff_exists'.1 inUse
    have starved := isStarved_of_lanes h.lanes c x
    have finds : findsStarved s c = x.lost.any (newlyStarved s c x) := by simp [findsStarved, used, other]
    rw [reevaluateOne_eq (here.trans used) (h.grantee ▸ other), newlyStarved_congr starved, markOf_congr starved]
    refine ⟨fun d => ?_, fun i => ?_, ?_⟩
    · dsimp only
      rw [getElem_set_ctx]
      by_cases same : c = d
      · subst same
        rw [if_pos rfl, if_pos ((spread c).2 (Or.inr rfl)), used, Option.map_some, remarked, if_neg other]
      · rw [if_neg same, h.contexts]
        simp only [spread, show ¬d = c from fun e => same e.symm, or_false]
    · rw [h.ready_next next i]
      exact readyAfter_getElem h nodup next used other i
    · rw [List.any_append, List.any_cons, List.any_nil, Bool.or_false, finds]
      have arbiter : t.arbiter = { s.arbiter with ready := t.arbiter.ready } := by rw [h.rest]
      rw [starveIf_rest h.rest, arbiter]

theorem reevaluate_spec {s : State} (nodup : s.readyContexts.Nodup) : Reevaluated s (List.finRange 48) (reevaluate s) :=
  foldl_nodup (P := Reevaluated s) (fun _ _ _ _ next h => reevaluated_step nodup next h)
    ⟨fun _ => by simp, fun _ => by simp, rfl⟩ _ (List.nodup_finRange 48)

theorem reevaluate_ready {s : State} (nodup : s.readyContexts.Nodup) (i : Fin 4) : (reevaluate s).arbiter.ready[i] =
    s.arbiter.ready[i].filter (staysReady s) ++ (List.finRange 48).filter (turnsReady s i) := by
  rw [(reevaluate_spec nodup).ready i]
  refine congrArg (· ++ _) (List.filter_congr fun c _ => ?_)
  rw [List.contains_iff_mem.2 (List.mem_finRange c), Bool.not_true, Bool.false_or]

theorem mem_reevaluate_ready {s : State} {c : CtxId} {x : Context} (nodup : s.readyContexts.Nodup)
    (used : s.contexts[c] = some x) (other : s.arbiter.grantee ≠ some c) :
    c ∈ (reevaluate s).readyContexts ↔ isReady s c = true := by
  have stays : staysReady s c = isReady s c := by simp [staysReady, used, other]
  rw [mem_readyContexts, mem_ready_iff]
  constructor
  · rintro ⟨i, mem⟩
    rw [reevaluate_ready nodup, List.mem_append, List.mem_filter, List.mem_filter, stays] at mem
    rcases mem with ⟨-, ready⟩ | ⟨-, turns⟩
    · exact ready
    · simp only [turnsReady, Bool.and_eq_true] at turns
      exact turns.1.2
  · intro ready
    by_cases on : onReadyList s c = true
    · obtain ⟨i, here⟩ := mem_ready_iff.1 on
      refine ⟨i, ?_⟩
      rw [reevaluate_ready nodup]
      exact List.mem_append_left _ (List.mem_filter.2 ⟨here, stays.trans ready⟩)
    · have absent : s.readyContexts.contains c = false := by
        rw [← Bool.not_eq_true, List.contains_iff_mem, mem_readyContexts]
        exact on
      refine ⟨classIndex x.urgency, ?_⟩
      rw [reevaluate_ready nodup]
      refine List.mem_append_right _ (List.mem_filter.2 ⟨List.mem_finRange c, ?_⟩)
      simp only [turnsReady, used, Option.any_some, bne_iff_ne.2 other, ready, absent, classIndex, beq_self_eq_true,
        Bool.not_false, Bool.and_self]

theorem findsStarved_iff (s : State) : (List.finRange 48).any (findsStarved s) = true ↔
    ∃ (c : CtxId) (x : Context), s.contexts[c] = some x ∧ s.arbiter.grantee ≠ some c ∧
      ∃ e ∈ x.lost, e.starved = false ∧ isStarved s c x e = true := by
  simp only [List.any_eq_true, List.mem_finRange, true_and, findsStarved, Bool.and_eq_true, bne_iff_ne, Option.any_eq_true,
    newlyStarved, Bool.not_eq_true']
  exact exists_congr fun c => ⟨fun ⟨other, x, used, found⟩ => ⟨x, used, other, found⟩,
    fun ⟨x, used, other, found⟩ => ⟨other, x, used, found⟩⟩

/-- Settles O46, by what a re-evaluation has done when it has looked at some of the contexts (`reevaluated_step`). -/
theorem readyListsHoldTheReady : Obligations.ReadyListsHoldTheReady := by
  unfold Obligations.ReadyListsHoldTheReady
  intro s nodup
  obtain ⟨contexts, -, rest⟩ := reevaluate_spec nodup
  refine ⟨fun c x used other => mem_reevaluate_ready nodup used other, fun c x used => ?_,
    fun i => reevaluate_ready nodup i, fun c x e used => ?_, fun c => ?_, ⟨fun found => ?_, fun nothing => ?_⟩, ?_⟩
  · rw [isReady_iff used, survivorsLanded_iff]
    simp only [canReceive_iff, needingOn_eq, availableCount]
    exact Iff.rfl
  · rw [isStarved_iff, survivorsLanded_iff]
    simp only [needingOn_eq, availableCount]
    exact Iff.rfl
  · rw [contexts c, if_pos (List.mem_finRange c)]
    rfl
  · rw [rest, (findsStarved_iff s).2 found]
    exact ⟨rfl, rfl⟩
  · rw [rest, Bool.eq_false_iff.2 fun found => nothing ((findsStarved_iff s).1 found)]
    exact ⟨rfl, rfl⟩
  · have quiet : starveIf ((List.finRange 48).any (findsStarved s)) s = { s with
        events := (reevaluate s).events, out := (reevaluate s).out } := by
      rw [rest]
      cases (List.finRange 48).any (findsStarved s)
      · rfl
      · obtain ⟨ev, os, e, -⟩ := raise_event .laneStarved s
        simp only [starveIf, if_true, e]
    conv_lhs => rw [rest, quiet]

end Sys2Proof.Proofs

/-! PROOFS. The claims, the beginning of a combine, the end of a turn and the grant (R112 to R115). -/

namespace Sys2Proof.Proofs

open Sys2Proof Sys2Proof.Machine

/-! ## The claims (R114) -/

theorem claimFor_opened {c : CtxId} {s : State} {e : LostEntry} (h : e.openRecord.isSome = true ∨ e.lane = none) :
    claimFor c s e = s := by
  unfold claimFor
  rcases h with opened | unassigned
  · obtain ⟨o, opened⟩ := Option.isSome_iff_exists.1 opened
    rw [opened]
    cases e.lane <;> rfl
  · rw [unassigned]

theorem claimFor_needed {c : CtxId} {s : State} {e : LostEntry} {p : LaneId} (lane : e.lane = some p)
    (unopened : e.openRecord = none) : claimFor c s e = claimBlank p c e.frag s := by
  simp only [claimFor, lane, unopened]

theorem reservedEntry_eq_none_iff {stock : List StockEntry} {c : CtxId} {f : Nat} : reservedEntry stock c f = none ↔
    ∀ j ∈ stock, ¬j.reservation = some { ctx := c, frag := f } := by
  simp [reservedEntry]

theorem claimBlank_reserved {c : CtxId} {s : State} {p : LaneId} {f : Nat} {pre post : List StockEntry} {k : StockEntry}
    (stock : s.lanes[p].stock = pre ++ k :: post)
    (before : ∀ j ∈ pre, ¬j.reservation = some { ctx := c, frag := f })
    (mine : k.reservation = some { ctx := c, frag := f }) : claimBlank p c f s =
      { s with lanes := s.lanes.set p { s.lanes[p] with stock := pre ++ { k with claim := some f } :: post } } := by
  have found : reservedEntry s.lanes[p].stock c f ≠ none := fun none =>
    reservedEntry_eq_none_iff.1 none k (stock ▸ List.mem_append_right _ List.mem_cons_self) mine
  obtain ⟨j, found⟩ := Option.ne_none_iff_exists'.1 found
  rw [claimBlank, modifyStock]
  simp only [found]
  rw [stock, changeFirst_append (fun j mem => by simpa using before j mem) (by simpa using mine)]
  rfl

theorem claimBlank_available {c : CtxId} {s : State} {p : LaneId} {f : Nat} {pre post : List StockEntry} {k : StockEntry}
    (stock : s.lanes[p].stock = pre ++ k :: post)
    (unreserved : ∀ j ∈ s.lanes[p].stock, ¬j.reservation = some { ctx := c, frag := f })
    (before : ∀ j ∈ pre, ¬j.available = true) (free : k.available = true) : claimBlank p c f s =
      { s with lanes := s.lanes.set p { s.lanes[p] with stock := pre ++ { k with claim := some f } :: post } } := by
  rw [claimBlank, modifyStock]
  simp only [reservedEntry_eq_none_iff.2 unreserved]
  rw [stock, changeFirst_append before free]
  rfl

/-! ## The beginning of a combine (R114, R115) -/

theorem claimFor_lanes (c : CtxId) (s : State) (e : LostEntry) :
    claimFor c s e = { s with lanes := (claimFor c s e).lanes } := by
  unfold claimFor
  split <;> rfl

/-- The claims change the lanes alone, and read nothing of the arbiter or the combine unit. -/
theorem claims_eq (c : CtxId) (l : List LostEntry) (s : State) (o : Option Combine) (a : Arbiter) :
    l.foldl (claimFor c) { s with combine := o, arbiter := a } =
      { s with combine := o, arbiter := a, lanes := (l.foldl (claimFor c) s).lanes } := by
  have one (s : State) (e : LostEntry) : claimFor c { s with combine := o, arbiter := a } e =
      { s with combine := o, arbiter := a, lanes := (claimFor c s e).lanes } := by
    unfold claimFor
    split <;> rfl
  induction l generalizing s with
  | nil => rfl
  | cons e l ih =>
    rw [List.foldl_cons, List.foldl_cons, one, claimFor_lanes c s e]
    exact ih { s with lanes := (claimFor c s e).lanes }

/-- The reads of one member. -/
def memberReads (S w len : Nat) (m : Member) : List Output :=
  readRequests (m.dataAddr + (w - m.first) * S) len ++
    match m.checks with
    | none => []
    | some a => readRequests (a + 4 * (w - m.first)) 4

theorem issueMemberReads_eq (S w len : Nat) (s : State) (m : Member) :
    issueMemberReads S w len s m = { s with out := s.out ++ memberReads S w len m } := by
  unfold issueMemberReads memberReads
  cases m.checks with
  | none => simp only [issueRead, emit, List.append_nil]
  | some a => simp only [issueRead, emit, List.append_assoc]

theorem issueReads_eq (S w len : Nat) (ms : List Member) (s : State) :
    ms.foldl (issueMemberReads S w len) s = { s with out := s.out ++ ms.flatMap (memberReads S w len) } := by
  induction ms generalizing s with
  | nil => rw [List.flatMap_nil, List.append_nil]; rfl
  | cons m ms ih => rw [List.foldl_cons, issueMemberReads_eq, ih, List.flatMap_cons, List.append_assoc]

/-- A context's next combine begun. -/
def begun (s : State) (c : CtxId) (x : Context) : State := { s with
  arbiter := { s.arbiter with turnCount := s.arbiter.turnCount + 1 }
  combine := some (combineFor c x s.now)
  lanes := (x.lost.foldl (claimFor c) s).lanes
  out := s.out ++ (recordMembers x).flatMap
    (memberReads x.profile.windowBytes x.front (validLength x.length x.profile.windowBytes x.front)) }

theorem beginCombine_eq {s : State} {c : CtxId} {x : Context} (used : s.contexts[c] = some x) :
    beginCombine c s = begun s c x := by
  simp only [beginCombine, used]
  rw [claims_eq, issueReads_eq]
  rfl

theorem recordMembers_eq (x : Context) : recordMembers x = x.basis.filterMap fun f =>
    (x.roster.find? fun k => k.frag == f).bind fun k =>
      (k.ranges.find? fun r => decide (r.first ≤ x.front ∧ x.front < r.first + r.count)).map fun r =>
        ({ frag := k.frag, first := r.first, dataAddr := r.dataAddr, checks := r.checks, readFailed := false } : Member) := by
  have holds (k : Candidate) : k.rangeFor x.front =
      k.ranges.find? fun r => decide (r.first ≤ x.front ∧ x.front < r.first + r.count) := by
    simp only [Candidate.rangeFor, Range.holds, Bool.decide_and]
  have record : recordMember x.front = fun k => (k.ranges.find? fun r =>
      decide (r.first ≤ x.front ∧ x.front < r.first + r.count)).map fun r =>
        ({ frag := k.frag, first := r.first, dataAddr := r.dataAddr, checks := r.checks, readFailed := false } : Member) :=
    funext fun k => by rw [recordMember, holds]
  rw [recordMembers, record]
  rfl

/-! ## The grant (R112) -/

theorem mostUrgentReady_some {s : State} {i : Fin 4} {c : CtxId} {tail : List CtxId}
    (head : s.arbiter.ready[i] = c :: tail) (empty : ∀ j : Fin 4, j < i → s.arbiter.ready[j] = []) :
    mostUrgentReady s = some c := by
  have split : s.arbiter.ready.toList = s.arbiter.ready.toList.take i ++ (c :: tail) :: s.arbiter.ready.toList.drop (i + 1) := by
    have lt : i.val < s.arbiter.ready.toList.length := by simp
    rw [← head]
    conv_lhs => rw [← List.take_append_drop i.val s.arbiter.ready.toList, List.drop_eq_getElem_cons lt]
    rfl
  refine List.findSome?_eq_some_iff.2 ⟨_, _, _, split, rfl, fun l mem => ?_⟩
  obtain ⟨j, lt, rfl⟩ := List.mem_iff_getElem.1 mem
  rw [List.length_take] at lt
  rw [List.getElem_take, Vector.getElem_toList]
  have none := empty ⟨j, by omega⟩ (by simp only [Fin.lt_def]; omega)
  rw [Fin.getElem_fin] at none
  rw [none]
  rfl

theorem grantNext_some {s : State} {c : CtxId} {x : Context} (idle : s.arbiter.grantee = none)
    (first : mostUrgentReady s = some c) (used : s.contexts[c] = some x) : grantNext s = reevaluate (begun { s with
      arbiter := { ready := s.arbiter.ready.map fun l => l.erase c
                   grantee := some c, turnCount := 0, turnQuota := s.control.timers.quota } } c x) := by
  have grant : grantNext s = reevaluate (grantTurn c s) := by
    rw [grantNext, if_neg (by simp [idle]), first]
  rw [grant, grantTurn, beginCombine_eq (x := x) (by exact used)]
  rfl

theorem beginCombine_grantee (c : CtxId) (s : State) : (beginCombine c s).arbiter.grantee = s.arbiter.grantee := by
  cases used : s.contexts[c] with
  | none => simp only [beginCombine, used]
  | some x => rw [beginCombine_eq used, begun]

/-- No ready context waits beside an idle unit after a grant was looked at (R112). -/
theorem grantNext_leaves_none {s : State} (idle : (grantNext s).arbiter.grantee = none) : (grantNext s).readyContexts = [] := by
  cases granted : s.arbiter.grantee.isSome with
  | true =>
    rw [grantNext_granted _ granted] at idle
    simp [idle] at granted
  | false =>
    cases first : mostUrgentReady s with
    | none => rwa [grantNext_empty _ first, ← mostUrgentReady_eq_none]
    | some c =>
      have grant : grantNext s = reevaluate (grantTurn c s) := by
        rw [grantNext, if_neg (by simp [granted]), first]
      rw [grant, (reevaluate_work _).grantee_eq, grantTurn, beginCombine_grantee] at idle
      cases idle

theorem exec_combineGrant {s : State}
    (working : s.control.engine = .running ∨ s.control.engine = .dozing ∨ s.control.engine = .stopping) :
    exec .combineGrant s = .next (grantNext s) := by
  simp only [exec, execCombineGrant, working_of working, if_true]

/-! ## The end of a turn (R113) -/

theorem endOfTurn_ungrant {s : State} {c : CtxId} (h : s.contexts[c] = none ∨ isReady s c = false) :
    endOfTurn c s = ungrant s := by
  unfold endOfTurn
  split
  · rfl
  · next x used =>
    rcases h with free | unready
    · rw [used] at free
      cases free
    · rw [unready]
      exact if_neg Bool.false_ne_true

theorem endOfTurn_ready {s : State} {c : CtxId} {x : Context} (used : s.contexts[c] = some x) (ready : isReady s c = true) :
    endOfTurn c s = if s.arbiter.turnCount < s.arbiter.turnQuota then beginCombine c s
      else makeReady c x.urgency (ungrant s) := by
  simp only [endOfTurn, used, ready, if_true]

/-- Settles O47. -/
theorem combineGrantBeginsATurn : Obligations.CombineGrantBeginsATurn := by
  unfold Obligations.CombineGrantBeginsATurn
  intro begun'
  have begun_eq : ∀ (s : State) (c : CtxId) (x : Context), begun s c x = begun' s c x := fun s c x => by
    simp only [begun, combineFor, recordMembers_eq]
    rfl
  refine ⟨fun s c e => ⟨claimFor_opened, fun p pre k post unopened lane stock => ⟨fun before mine => ?_,
      fun unreserved before unheld unclaimed => ?_⟩⟩, fun s i c tail x working idle head empty used => ?_,
    fun s working => ⟨exec_combineGrant working, fun quiet => ?_⟩, fun s c => ⟨fun h => endOfTurn_ungrant h,
      fun x used ready => ⟨fun below => ?_, fun i place full => ?_⟩⟩,
    fun s idle => ?_⟩
  · rw [claimFor_needed lane unopened]
    exact claimBlank_reserved stock before mine
  · rw [claimFor_needed lane unopened]
    refine claimBlank_available stock unreserved (fun j mem free => ?_) ((available_iff k).2 ⟨unheld, unclaimed⟩)
    obtain ⟨h, h'⟩ := (available_iff j).1 free
    exact (before j mem).elim (absurd h) (absurd h')
  · rw [exec_combineGrant working, grantNext_some idle (mostUrgentReady_some head empty) used, begun_eq]
  · rw [exec_combineGrant working]
    rcases quiet with granted | empty
    · rw [grantNext_granted _ granted]
    · rw [grantNext_empty _ ((mostUrgentReady_eq_none s).2 empty)]
  · rw [endOfTurn_ready used ready, if_pos below, beginCombine_eq used, begun_eq]
  · obtain rfl : i = classIndex x.urgency := Fin.ext place
    rw [endOfTurn_ready used ready, if_neg (Nat.not_lt.2 full), makeReady]
    rfl
  · rw [arbitrate] at idle ⊢
    exact grantNext_leaves_none idle

end Sys2Proof.Proofs

/-! PROOFS. Releases of marks, lane by lane, and the end of a drain (R45 to R49, R88, R124, R136, R149). -/

namespace Sys2Proof.Proofs

open Sys2Proof Sys2Proof.Machine

/-! ## Marks released on every lane (R124, R136, R149) -/

theorem getElem_set_lane {v : Vector Lane 32} (p q : LaneId) (l : Lane) : (v.set p l)[q] = if p = q then l else v[q] := by
  simp [Vector.getElem_set, Fin.ext_iff]

theorem Involves.congr {s t : State} (h : t.contexts = s.contexts) (c : CtxId) (p : LaneId) :
    Involves t c p ↔ Involves s c p := by rw [Involves, Involves, h]

/-- A blank available on a lane changes the mark on that lane alone (R136). -/
theorem blankAvailable_eq (p : LaneId) (s : State) :
    blankAvailable p s = { s with steering := { s.steering with retryDue := (blankAvailable p s).steering.retryDue } } := by
  unfold blankAvailable
  split <;> rfl

theorem mem_blankAvailable (p q : LaneId) (s : State) : q ∈ (blankAvailable p s).steering.retryDue ↔
    q ∈ s.steering.retryDue ∨ (q = p ∧ ∃ c ∈ s.steering.waitList, Involves s c p) := by
  by_cases wanted : ∃ c ∈ s.steering.waitList, Involves s c p
  · by_cases marked : p ∈ s.steering.retryDue
    · rw [blankAvailable_quiet (Or.inr marked)]
      refine ⟨Or.inl, fun h => h.elim id fun ⟨e, _⟩ => e ▸ marked⟩
    · rw [blankAvailable_marks wanted marked]
      simp only [List.mem_append, List.mem_singleton, and_iff_left wanted]
  · rw [blankAvailable_quiet (Or.inl fun c mem involved => wanted ⟨c, mem, involved⟩)]
    simp only [wanted, and_false, or_false]

/-- A release on one lane: marks cleared by `g`, and the lane looked at when a blank meets `freed`. -/
def releaseOn (g : StockEntry → StockEntry) (freed : StockEntry → Bool) (s : State) (p : LaneId) : State :=
  if s.lanes[p].stock.any freed then blankAvailable p (modifyStock p (List.map g) s) else modifyStock p (List.map g) s

/-- What releases on some lanes leave. -/
structure Released (g : StockEntry → StockEntry) (freed : StockEntry → Bool) (s : State) (done : List LaneId) (t : State) :
    Prop where
  lanes : ∀ p : LaneId, t.lanes[p] =
    if p ∈ done then { s.lanes[p] with stock := s.lanes[p].stock.map g } else s.lanes[p]
  due : ∀ p : LaneId, p ∈ t.steering.retryDue ↔ p ∈ s.steering.retryDue ∨
    (p ∈ done ∧ (∃ k ∈ s.lanes[p].stock, freed k = true) ∧ ∃ d ∈ s.steering.waitList, Involves s d p)
  rest : t = { s with lanes := t.lanes, steering := { s.steering with retryDue := t.steering.retryDue } }

section
variable {g : StockEntry → StockEntry} {freed : StockEntry → Bool} {s t : State} {done : List LaneId} {p : LaneId}

theorem releaseOn_step (next : p ∉ done) (h : Released g freed s done t) :
    Released g freed s (done ++ [p]) (releaseOn g freed t p) := by
  have here : t.lanes[p] = s.lanes[p] := by rw [h.lanes, if_neg next]
  have contexts : t.contexts = s.contexts := by rw [h.rest]
  have waiting : t.steering.waitList = s.steering.waitList := by rw [h.rest]
  have spread : ∀ q : LaneId, q ∈ done ++ [p] ↔ q ∈ done ∨ q = p := fun q => by simp
  have lanes : ∀ q : LaneId, (modifyStock p (List.map g) t).lanes[q] =
      if q ∈ done ++ [p] then { s.lanes[q] with stock := s.lanes[q].stock.map g } else s.lanes[q] := fun q => by
    rw [modifyStock, setLane]
    dsimp only
    rw [getElem_set_lane]
    by_cases same : p = q
    · subst same
      rw [if_pos rfl, if_pos ((spread p).2 (Or.inr rfl)), here]
    · simp only [if_neg same, h.lanes, spread, show ¬q = p from fun e => same e.symm, or_false]
  have off : ∀ q : LaneId, (q ∈ done ++ [p] ∧ (∃ k ∈ s.lanes[q].stock, freed k = true) ∧
      ∃ d ∈ s.steering.waitList, Involves s d q) ↔
      (q ∈ done ∧ (∃ k ∈ s.lanes[q].stock, freed k = true) ∧ ∃ d ∈ s.steering.waitList, Involves s d q) ∨
      (q = p ∧ (∃ k ∈ s.lanes[p].stock, freed k = true) ∧ ∃ d ∈ s.steering.waitList, Involves s d p) := fun q => by
    rw [spread, or_and_right]
    exact or_congr Iff.rfl (and_congr_right fun e => by rw [e])
  have quiet : modifyStock p (List.map g) t = { s with
      lanes := (modifyStock p (List.map g) t).lanes
      steering := { s.steering with retryDue := t.steering.retryDue } } := by
    conv_lhs => rw [modifyStock, setLane, h.rest]
    rfl
  have freed_iff : t.lanes[p].stock.any freed = true ↔ ∃ k ∈ s.lanes[p].stock, freed k = true := by
    rw [here, List.any_eq_true]
  rw [releaseOn]
  split
  · next found =>
    refine ⟨fun q => ?_, fun q => ?_, ?_⟩
    · rw [blankAvailable_eq]
      exact lanes q
    · rw [mem_blankAvailable, off]
      have involved : (∃ d ∈ (modifyStock p (List.map g) t).steering.waitList, Involves (modifyStock p (List.map g) t) d p) ↔
          ∃ d ∈ s.steering.waitList, Involves s d p := by
        rw [show (modifyStock p (List.map g) t).steering.waitList = s.steering.waitList from waiting]
        exact exists_congr fun d => and_congr_right fun _ => Involves.congr contexts d p
      rw [involved, ← or_assoc, ← h.due q, and_iff_right (freed_iff.1 found)]
      rfl
    · rw [blankAvailable_eq]
      exact congrArg (fun u : State => { u with steering := { u.steering with
        retryDue := (blankAvailable p (modifyStock p (List.map g) t)).steering.retryDue } }) quiet
  · next nothing =>
    refine ⟨lanes, fun q => ?_, quiet⟩
    rw [off, ← or_assoc, ← h.due q]
    exact ⟨Or.inl, fun h => h.elim id fun ⟨_, found, _⟩ => absurd (freed_iff.2 found) nothing⟩

theorem releaseOn_all (g : StockEntry → StockEntry) (freed : StockEntry → Bool) (s : State) :
    Released g freed s (List.finRange 32) ((List.finRange 32).foldl (releaseOn g freed) s) :=
  foldl_nodup (P := Released g freed s) (fun _ _ _ _ next h => releaseOn_step next h)
    ⟨fun p => by simp, fun p => by simp, rfl⟩ _ (List.nodup_finRange 32)

theorem Released.lane (h : Released g freed s (List.finRange 32) t) (p : LaneId) :
    t.lanes[p] = { s.lanes[p] with stock := s.lanes[p].stock.map g } := by
  rw [h.lanes, if_pos (List.mem_finRange p)]

theorem Released.retry (h : Released g freed s (List.finRange 32) t) (p : LaneId) : p ∈ t.steering.retryDue ↔
    p ∈ s.steering.retryDue ∨ ((∃ k ∈ s.lanes[p].stock, freed k = true) ∧ ∃ d ∈ s.steering.waitList, Involves s d p) := by
  rw [h.due, and_iff_right (List.mem_finRange p)]

end

/-- A claim cleared. -/
def unclaimed (k : StockEntry) : StockEntry := { k with claim := none }

/-- A reservation of the context cleared. -/
def unreserved (c : CtxId) (k : StockEntry) : StockEntry := if k.reservedBy c then { k with reservation := none } else k

theorem releaseClaims_released (s : State) :
    Released unclaimed (fun k => k.claim.isSome && k.reservation.isNone) s (List.finRange 32) (releaseClaims s) :=
  releaseOn_all unclaimed (fun k => k.claim.isSome && k.reservation.isNone) s

theorem freeContext_released (c : CtxId) (s : State) : Released (unreserved c)
    (fun k => k.reservedBy c && k.claim.isNone) (setContext c none s) (List.finRange 32) (freeContext c s) :=
  releaseOn_all (unreserved c) (fun k => k.reservedBy c && k.claim.isNone) (setContext c none s)

/-! ## The stocks, and the other contexts, through a drain's end (R46, R49, R88) -/

/-- The kinds that change a stock. -/
abbrev stockKinds : List Kind := [.marks, .unstock, .stock, .load, .reset]

theorem Act.stock_eq {k : Kind} {s t : State} (a : Act k s t) (hk : k ∉ stockKinds) (p : LaneId) :
    t.lanes[p].stock = s.lanes[p].stock := by
  cases a with
  | halt _ c => rcases halt_cases c s with ⟨_, e⟩ | ⟨_, ev, os, _, e⟩ <;> rw [e]
  | marks | unstock | stock | load | reset => exact absurd (by decide) hk
  | tails _ ls f same => exact (same p).1
  | _ => rfl

theorem Work.stock_eq {K : List Kind} {s t : State} (w : Work K s t) (p : LaneId)
    (hK : ∀ k ∈ K, k ∉ stockKinds := by decide) : t.lanes[p].stock = s.lanes[p].stock :=
  w.same (fun s => s.lanes[p].stock) fun k mem _ _ act => act.stock_eq (hK k mem) p

/-- A record closed changes its own context alone. -/
theorem closeFragment_others {s : State} (c : CtxId) (i : Nat) (status : DeliveryStatus) (h : Calm s) :
    (closeFragment c i status s).contexts.set c none = s.contexts.set c none := by
  cases used : s.contexts[c] with
  | none => simp [closeFragment, used]
  | some x =>
    cases entry : x.lost[i]? with
    | none => simp [closeFragment, used, entry]
    | some e =>
      cases opened : e.openRecord with
      | none => rw [closeFragment_closed used entry status opened]
      | some r =>
        cases lane : e.lane with
        | none => simp [closeFragment, used, entry, lane]
        | some p =>
          rw [closeFragment_open h used entry status lane opened]
          exact Vector.set_set _ c.isLt

theorem closeAll_others {s : State} (c : CtxId) (x : Context) (h : Calm s) :
    (closeAll c x s).contexts.set c none = s.contexts.set c none := by
  have kept (is : List Nat) : ∀ t : State, Calm t →
      (is.foldl (fun u i => closeFragment c i .closedEarly u) t).contexts.set c none = t.contexts.set c none := by
    induction is with
    | nil => exact fun _ _ => rfl
    | cons i is ih =>
      intro t calm
      exact (ih _ (calm.of_control (closeFragment_control c i _ calm))).trans (closeFragment_others c i _ calm)
  exact kept _ s h

theorem finishAppend_lanes {s : State} (order : Nat) (r : OrderResult) (notify : Bool) (h : Calm s) :
    (finishAppend order r notify s).lanes = s.lanes := by
  rw [finishAppend_permitted order r notify h.2 (h.permits _)]
  dsimp only
  split
  · exact (raise_work _ _).lanes_eq
  · rfl

theorem unreserved_eq (c : CtxId) (k : StockEntry) : unreserved c k =
    { k with reservation := if ∃ q, k.reservation = some q ∧ q.ctx = c then none else k.reservation } := by
  have mine : (k.reservation.any fun q => q.ctx == c) = true ↔ ∃ q, k.reservation = some q ∧ q.ctx = c := by
    simp only [Option.any_eq_true, beq_iff_eq]
  rw [unreserved, reservedBy_eq]
  simp only [mine]

theorem reservedBy_iff (k : StockEntry) (c : CtxId) : k.reservedBy c = true ↔ ∃ q, k.reservation = some q ∧ q.ctx = c := by
  cases held : k.reservation <;> simp [StockEntry.reservedBy, held]

/-- What the freeing of a context leaves: the stocks without its reservations, and the lanes to look at. -/
theorem freeContext_leaves {s v : State} {c : CtxId} (emptied : v.contexts.set c none = s.contexts.set c none)
    (steering : v.steering = s.steering) (stock : ∀ p : LaneId, v.lanes[p].stock = s.lanes[p].stock) :
    (freeContext c v).contexts = s.contexts.set c none ∧ (freeContext c v).out = v.out ∧
      (∀ p : LaneId, (freeContext c v).lanes[p].filledTail = v.lanes[p].filledTail ∧
        (freeContext c v).lanes[p].stock = s.lanes[p].stock.map (unreserved c)) ∧
      (freeContext c v).steering.waitList = s.steering.waitList ∧
      ∀ p : LaneId, p ∈ (freeContext c v).steering.retryDue ↔ p ∈ s.steering.retryDue ∨
        ((∃ k ∈ s.lanes[p].stock, k.reservedBy c = true ∧ k.claim = none) ∧
          ∃ d ∈ s.steering.waitList, d ≠ c ∧ Involves s d p) := by
  have released := freeContext_released c v
  have others (d : CtxId) (p : LaneId) : Involves (setContext c none v) d p ↔ d ≠ c ∧ Involves s d p := by
    rw [Involves, Involves, setContext]
    dsimp only
    rw [emptied, getElem_set_ctx]
    by_cases same : c = d
    · simp [same]
    · simp [same, show d ≠ c from fun e => same e.symm]
  refine ⟨?_, ?_, fun p => ⟨?_, ?_⟩, ?_, fun p => ?_⟩
  · rw [released.rest]
    exact emptied
  · rw [released.rest]
    rfl
  · rw [released.lane p]
    rfl
  · rw [released.lane p, ← stock p]
    rfl
  · rw [released.rest, ← steering]
    rfl
  · rw [released.retry p, ← stock p, ← steering]
    simp only [others, Bool.and_eq_true, Option.isNone_iff_eq_none]
    rfl

/-- What a drain's end leaves, with the writes of the closes and the finish append. -/
theorem finishContext_leaves {s : State} {c : CtxId} {x : Context} (h : Calm s) (used : s.contexts[c] = some x) :
    (finishContext c s).contexts = s.contexts.set c none ∧
      (finishContext c s).out = (finishAppend x.orderAddr x.result x.notify (closeAll c x s)).out ∧
      (∀ p : LaneId, (finishContext c s).lanes[p].filledTail = (closeAll c x s).lanes[p].filledTail ∧
        (finishContext c s).lanes[p].stock = s.lanes[p].stock.map (unreserved c)) ∧
      (finishContext c s).steering.waitList = s.steering.waitList ∧
      ∀ p : LaneId, p ∈ (finishContext c s).steering.retryDue ↔ p ∈ s.steering.retryDue ∨
        ((∃ k ∈ s.lanes[p].stock, k.reservedBy c = true ∧ k.claim = none) ∧
          ∃ d ∈ s.steering.waitList, d ≠ c ∧ Involves s d p) := by
  have closes := closeAll_work c x s
  have calm := h.of_control (inOrder_closes c x h).2
  have appends := finishAppend_work x.orderAddr x.result x.notify (closeAll c x s)
  have lanes := finishAppend_lanes x.orderAddr x.result x.notify calm
  have others : (finishAppend x.orderAddr x.result x.notify (closeAll c x s)).contexts.set c none = s.contexts.set c none :=
    (congrArg (fun v : Vector (Option Context) 48 => v.set c none) appends.contexts_eq).trans (closeAll_others c x h)
  have steering := appends.steering_eq.trans closes.steering_eq
  have stock (p : LaneId) := (appends.stock_eq p).trans (closes.stock_eq p)
  rw [finishContext_calm h used]
  generalize finishAppend x.orderAddr x.result x.notify (closeAll c x s) = v at lanes others steering stock
  obtain ⟨contexts, out, left, waiting, due⟩ := freeContext_leaves others steering stock
  exact ⟨contexts, out, fun p => ⟨(left p).1.trans (by rw [lanes]), (left p).2⟩, waiting, due⟩

theorem exec_drainFinish {s : State} {c : CtxId}
    (working : s.control.engine = .running ∨ s.control.engine = .dozing ∨ s.control.engine = .stopping)
    (due : drainDue s c = true) (live : (finishContext c s).halted = false) :
    exec (.drainFinish c) s = .next (endEvent (arbitrate (finishContext c s))) := by
  simp only [exec, execDrainFinish, working_of working, due, Bool.and_self, if_true]
  rw [inOrder_step _ _ _ (live_of_working working), inOrder_pair _ _ live ((arbitrate_halted _).trans live)]

theorem drainDue_of {s : State} {c : CtxId} {x : Context} (used : s.contexts[c] = some x) (draining : x.state = .draining)
    (solve : s.solve.map Solve.ctx ≠ some c) (combine : s.combine.map Combine.ctx ≠ some c) : drainDue s c = true := by
  simp only [drainDue, used, draining, beq_self_eq_true, Bool.true_and, inFlight, beq_false_of_ne solve,
    beq_false_of_ne combine, Bool.or_self, Bool.not_false]

/-- Settles O51: what the drain's end leaves (`finishContext_leaves`), and what the rest of its event keeps. -/
theorem drainFinishFreesTheContext : Obligations.DrainFinishFreesTheContext := by
  unfold Obligations.DrainFinishFreesTheContext
  refine ⟨fun s c x i e used entry off live => ⟨fun unopened => closeFragment_closed used entry _ unopened,
    fun p r lane opened => closeFragment_open ⟨off, not_halted live⟩ used entry _ lane opened⟩,
    fun s c x working used draining solve combine off => ?_⟩
  intro slots r closed ofContext involves
  have calm : Calm s := calm_of_working off working
  have result : x.result = r := by
    simp only [r, slots, Context.result, resultSlot, fragmentOutcome] <;> rfl
  obtain ⟨contexts, out, lanes, waiting, due⟩ := finishContext_leaves calm used
  have control := finishContext_control c calm
  have w := finishContext_work c s
  obtain ⟨free, tail, stops⟩ := drainEnds calm used arbitrate_work
  refine ⟨finishContext c s, _, exec_drainFinish working (drainDue_of used draining solve combine) (calm.of_control control).2,
    rfl, contexts, result ▸ out, (finishContext_ends calm used).2, control, w.pen_eq, w.solver_eq.2, w.arbiter_eq,
    fun p => ⟨(lanes p).1, ?_⟩, waiting, fun p => ?_, free, tail,
    ((arbitrate_work _).logKept.2.2.2).trans (endEvent_work _).logKept.2.2.2, fun d y other used' => ?_, stops⟩
  · rw [(lanes p).2]
    exact List.map_congr_left fun k _ => unreserved_eq c k
  · rw [due p]
    simp only [reservedBy_iff]
    refine or_congr Iff.rfl (and_congr Iff.rfl (exists_congr fun d => and_congr_right fun _ => Iff.rfl))
  · have here : (finishContext c s).contexts[d] = some y := by
      rw [contexts, getElem_set_ctx, if_neg fun e => other e.symm, used']
    obtain ⟨z, after, kept⟩ := ((arbitrate_contextsKept _).trans (endEvent_contextsKept _)).some here
    exact ⟨z, after, kept.tag, kept.state⟩

end Sys2Proof.Proofs

/-! PROOFS. Combines that deliver nothing (R117 to R119, R124). -/

namespace Sys2Proof.Proofs

open Sys2Proof Sys2Proof.Machine

/-! ## Claims outside a combine (R124) -/

/-- Without a combine in flight no blank is claimed. -/
def ClaimsHeld (s : State) : Prop := s.combine = none → ∀ (p : LaneId), ∀ k ∈ s.lanes[p].stock, k.claim = none

/-- Each blank in its place keeps its claim. -/
def ClaimsKept (s t : State) : Prop :=
  ∀ p : LaneId, t.lanes[p].stock.map StockEntry.claim = s.lanes[p].stock.map StockEntry.claim

theorem ClaimsKept.of_lanes {s t : State} (h : t.lanes = s.lanes) : ClaimsKept s t := fun p => by rw [h]

theorem ClaimsKept.trans {s t u : State} (a : ClaimsKept s t) (b : ClaimsKept t u) : ClaimsKept s u :=
  fun p => (b p).trans (a p)

theorem ClaimsHeld.kept {s t : State} (h : ClaimsHeld s) (combine : t.combine = s.combine) (kept : ClaimsKept s t) :
    ClaimsHeld t := fun idle p k mem => by
  have claims : ∀ o ∈ s.lanes[p].stock.map StockEntry.claim, o = none := fun o mem => by
    obtain ⟨j, held, rfl⟩ := List.mem_map.1 mem
    exact h (combine ▸ idle) p j held
  exact claims _ (kept p ▸ List.mem_map_of_mem mem)

theorem ClaimsHeld.same {s t : State} (h : ClaimsHeld s) (combine : t.combine = s.combine) (lanes : t.lanes = s.lanes) :
    ClaimsHeld t := h.kept combine (.of_lanes lanes)

theorem modifyStock_claimsKept {f : List StockEntry → List StockEntry}
    (same : ∀ es, (f es).map StockEntry.claim = es.map StockEntry.claim) (p : LaneId) (s : State) :
    ClaimsKept s (modifyStock p f s) := fun q => by
  rw [modifyStock, setLane]
  dsimp only
  rw [getElem_set_lane]
  split
  · next e => rw [← e]; exact same _
  · rfl

theorem changeFirst_claims (test : StockEntry → Bool) {f : StockEntry → StockEntry} (same : ∀ k, (f k).claim = k.claim)
    (es : List StockEntry) : (changeFirst test f es).map StockEntry.claim = es.map StockEntry.claim := by
  induction es with
  | nil => rfl
  | cons k es ih =>
    rw [changeFirst]
    split
    · rw [List.map_cons, List.map_cons, same]
    · rw [List.map_cons, List.map_cons, ih]

theorem assignFragment_claimsKept (c : CtxId) (s : State) (i : Nat) : ClaimsKept s (assignFragment c s i) := by
  cases used : s.contexts[c] with
  | none => exact .of_lanes (by simp [assignFragment, used])
  | some x =>
    cases entry : x.lost[i]? with
    | none => exact .of_lanes (by simp [assignFragment, used, entry])
    | some e =>
      rw [assignFragment_some used entry]
      split
      · exact .of_lanes rfl
      · refine ClaimsKept.trans (.of_lanes ?_) (modifyStock_claimsKept (changeFirst_claims
          StockEntry.available (f := fun k => { k with reservation := some { ctx := c, frag := e.frag } }) fun _ => rfl) _ _)
        exact (modifyLost_work _ _ (fun e => { e with lane := some _ }) s).lanes_eq

theorem foldl_claimsKept {α : Type} {f : State → α → State} (h : ∀ t a, ClaimsKept t (f t a)) (l : List α) (s : State) :
    ClaimsKept s (l.foldl f s) := by
  induction l generalizing s with
  | nil => exact .of_lanes rfl
  | cons a l ih => exact (h s a).trans (ih _)

theorem waitSteering_claimsKept (c : CtxId) (s : State) : ClaimsKept s (waitSteering c s) := fun p => by
  rw [(waitSteering_leaves c s).2.1, dropReservations_eq]
  simp [Function.comp_def]

theorem attemptSteering_claimsKept (c : CtxId) (s : State) : ClaimsKept s (attemptSteering c s) := by
  cases used : s.contexts[c] with
  | none => exact .of_lanes (by simp [attemptSteering, used])
  | some x =>
    by_cases steering : x.state = .steering
    · obtain ⟨y, used', -⟩ := assignAll_assigning used
      rw [attemptSteering_some used steering]
      refine ClaimsKept.trans (foldl_claimsKept (assignFragment_claimsKept c) (List.range x.lost.length) s) ?_
      split
      · exact waitSteering_claimsKept c _
      · obtain ⟨-, -, -, -, lanes, -⟩ := leaveSteering_leaves used'
        exact .of_lanes lanes
    · exact .of_lanes (by simp [attemptSteering, used, steering])

theorem retryWaiting_claimsKept (s : State) : ClaimsKept s (retryWaiting s) :=
  ClaimsKept.trans (t := { s with steering := { s.steering with retryDue := [] } }) (.of_lanes rfl)
    (foldl_claimsKept (fun t c => attemptSteering_claimsKept c t) (waitersDue s) _)

theorem retryWaiting_claimsHeld {s : State} (h : ClaimsHeld s) : ClaimsHeld (retryWaiting s) :=
  h.kept (retryWaiting_work s).combine_eq (retryWaiting_claimsKept s)

theorem reevaluate_claimsHeld {s : State} (h : ClaimsHeld s) : ClaimsHeld (reevaluate s) :=
  h.same (reevaluate_work s).combine_eq (reevaluate_work s).lanes_eq

theorem beginCombine_claimsHeld {s : State} (c : CtxId) (h : ClaimsHeld s) : ClaimsHeld (beginCombine c s) := by
  cases used : s.contexts[c] with
  | none => simpa only [beginCombine, used] using h
  | some x =>
    rw [beginCombine_eq used]
    exact fun idle => absurd idle nofun

theorem endOfTurn_claimsHeld {s : State} (c : CtxId) (h : ClaimsHeld s) : ClaimsHeld (endOfTurn c s) := by
  unfold endOfTurn
  split
  · exact h.same rfl rfl
  · split
    · split
      · exact beginCombine_claimsHeld c h
      · exact h.same rfl rfl
    · exact h.same rfl rfl

theorem grantNext_claimsHeld {s : State} (h : ClaimsHeld s) : ClaimsHeld (grantNext s) := by
  unfold grantNext
  split
  · exact h
  · split
    · exact h
    · exact reevaluate_claimsHeld (beginCombine_claimsHeld _ (h.same rfl rfl))

theorem arbitrate_claimsHeld {s : State} (h : ClaimsHeld s) : ClaimsHeld (arbitrate s) :=
  grantNext_claimsHeld (reevaluate_claimsHeld (retryWaiting_claimsHeld h))

theorem endEvent_claimsHeld {s : State} (h : ClaimsHeld s) (off : s.control.engine ≠ .stopping ∨ s.unfenced) :
    ClaimsHeld (endEvent s) := by
  by_cases stopping : s.control.engine = .stopping
  · have unfenced := off.resolve_left (not_not.2 stopping)
    obtain ⟨-, -, lanes⟩ := concludeStop_calm stopping unfenced
    rw [endEvent_stopping stopping unfenced]
    intro idle p k mem
    rw [(lanes p).1] at mem
    exact h ((concludeStop_work s).combine_eq ▸ idle) p k (List.mem_of_mem_filter mem)
  · have rest : Work (walkKinds ++ dozeKinds) s (enterDoze (giveLeave s)) :=
      (giveLeave_work s).mono.trans (enterDoze_work _).mono
    rw [endEvent, concludeStop_of_not_stopping stopping]
    exact h.same rest.combine_eq rest.lanes_eq

theorem releaseClaims_claimsHeld (s : State) : ClaimsHeld (releaseClaims s) := fun _ p k mem => by
  rw [(releaseClaims_released s).lane p] at mem
  obtain ⟨j, -, rfl⟩ := List.mem_map.1 mem
  rfl

/-! ## A completion, from what it does to its context -/

/-- What follows a completion's acts: the retries, the readiness, the end of the turn and the grant (R112, R113, R136). -/
def turnOver (c : CtxId) (s : State) : State := arbitrate (endOfTurn c (reevaluate (retryWaiting s)))

/-- The kinds of acts at the end of a turn. -/
abbrev turnKinds : List Kind := .rejoin :: arbitrateKinds

theorem turnOver_work (c : CtxId) (s : State) : Work turnKinds s (turnOver c s) :=
  (((retryWaiting_work s).mono.trans (reevaluate_work _).mono).trans (endOfTurn_work c _).mono).trans (arbitrate_work _).mono

theorem turnOver_contextsKept (c : CtxId) (s : State) : ContextsKept s (turnOver c s) :=
  (((retryWaiting_contextsKept s).trans (reevaluate_contextsKept _)).trans
    (.of_contexts (endOfTurn_work c _).contexts_eq)).trans (arbitrate_contextsKept _)

theorem turnOver_claimsHeld {c : CtxId} {s : State} (h : ClaimsHeld s) : ClaimsHeld (turnOver c s) :=
  arbitrate_claimsHeld (endOfTurn_claimsHeld c (reevaluate_claimsHeld (retryWaiting_claimsHeld h)))

theorem exec_combineCompletion {s u w : State} {op : Combine} {reads : List SurvivorRead} {fault : Bool}
    (working : s.control.engine = .running ∨ s.control.engine = .dozing ∨ s.control.engine = .stopping)
    (combine : s.combine = some op) (fit : readsFit op reads = true)
    (acted : actOnCombine op reads fault { s with combine := none } = u) (live : u.halted = false)
    (ended : finishIfDue op.ctx u = w) (still : w.halted = false) :
    exec (.combineCompletion reads fault) s = .next (endEvent (turnOver op.ctx w)) := by
  have started : s.halted = false := live_of_working working
  have retried : (retryWaiting w).halted = false := (halted_of_engine_eq (retryWaiting_work w).engine_eq).trans still
  have evaluated : (reevaluate (retryWaiting w)).halted = false :=
    (halted_of_engine_eq (reevaluate_work _).engine_eq).trans retried
  have turned : (endOfTurn op.ctx (reevaluate (retryWaiting w))).halted = false :=
    (halted_of_engine_eq (endOfTurn_work _ _).engine_eq).trans evaluated
  simp only [exec, execCombineCompletion, working_of working, combine, if_pos fit]
  rw [inOrder_step _ _ _ (by exact started), acted, inOrder_step _ _ _ live, ended, inOrder_step _ _ _ still,
    inOrder_step _ _ _ retried, inOrder_step _ _ _ evaluated, inOrder_pair _ _ turned ((arbitrate_halted _).trans turned)]
  rfl

theorem discards_iff (op : Combine) (x : Context) : discards op x = true ↔ x.state ≠ .active ∨ x.cancelPending = true ∨
    x.abortPending = true ∨ x.changeCount ≠ op.changeCount ∨ x.generation ≠ op.generation := by
  simp [discards, or_assoc]

theorem actOnCombine_discarded {s : State} {op : Combine} {x : Context} (reads : List SurvivorRead) (fault : Bool)
    (used : s.contexts[op.ctx] = some x) (stale : discards op x = true) :
    actOnCombine op reads fault s = evaluateStraggler op.ctx false (releaseClaims s) := by
  simp only [actOnCombine, used, stale, if_true]

/-- The straggler condition looked at changes the timer alone. -/
theorem evaluateStraggler_keeps {s : State} {c : CtxId} {x : Context} (advanced : Bool) (used : s.contexts[c] = some x) :
    ∃ y, (evaluateStraggler c advanced s).contexts[c] = some y ∧ y.state = x.state ∧ y.front = x.front ∧
      y.roster = x.roster ∧ y.basis = x.basis := by
  by_cases active : x.state = .active
  · rw [evaluateStraggler_active advanced used active]
    refine ⟨x.evalStraggler s.now s.control.timers.straggler advanced, Vector.getElem_set_self _, ?_⟩
    unfold Context.evalStraggler
    split
    · split <;> exact ⟨rfl, rfl, rfl, rfl⟩
    · exact ⟨rfl, rfl, rfl, rfl⟩
  · rw [evaluateStraggler_other advanced used active]
    exact ⟨x, used, rfl, rfl, rfl, rfl⟩

/-- What an event that ends the turn leaves in STOPPING: marked blanks alone. -/
theorem endEvent_marked {s : State} (stopping : s.control.engine = .stopping) (off : s.unfenced) :
    ∀ (p : LaneId), ∀ k ∈ (endEvent s).lanes[p].stock, k.reservation.isSome = true ∨ k.claim.isSome = true := by
  intro p k mem
  rw [endEvent_stopping stopping off, ((concludeStop_calm stopping off).2.2 p).1] at mem
  simpa using (List.mem_filter.1 mem).2

theorem endEvent_stays {s : State} {c : CtxId} {x : Context} (stopping : s.control.engine = .stopping) (off : s.unfenced)
    (used : s.contexts[c] = some x) : (endEvent s).control.engine = .stopping := by
  rw [endEvent_stopping stopping off, (concludeStop_calm stopping off).1, if_neg]
  intro none
  rw [(contextsInUse_eq_zero_iff s).1 none c] at used
  cases used

theorem endEvent_writes_none {s : State} (other : s.control.engine ≠ .stopping) :
    ∃ os, (endEvent s).out = s.out ++ os ∧ ∀ o ∈ os, o.isWrite = false := by
  rw [endEvent, concludeStop_of_not_stopping other]
  obtain ⟨os, out, good⟩ := Work.issues (K := walkKinds ++ dozeKinds)
    ((giveLeave_work s).mono.trans (enterDoze_work (giveLeave s)).mono)
  exact ⟨os, out, fun o mem => (good o mem).2.1 (by decide)⟩

theorem unfenced_of_control {s t : State} (h : t.control = s.control) (off : s.unfenced) : t.unfenced := by
  unfold State.unfenced State.fenceList at off ⊢
  rwa [h]

/-- A completion that no longer belongs to its context, up to the drain it may finish. -/
def released (s : State) (op : Combine) : State := evaluateStraggler op.ctx false (releaseClaims { s with combine := none })

theorem released_work (s : State) (op : Combine) : Work [.marks, .retry, .edit] { s with combine := none } (released s op) :=
  (releaseClaims_work { s with combine := none }).mono.trans (evaluateStraggler_work _ _ _).mono

section
variable {s : State} {op : Combine} {x : Context} {reads : List SurvivorRead} {fault : Bool}

theorem released_keeps (used : s.contexts[op.ctx] = some x) : ∃ y, (released s op).contexts[op.ctx] = some y ∧
    y.state = x.state ∧ y.front = x.front ∧ y.roster = x.roster ∧ y.basis = x.basis :=
  evaluateStraggler_keeps false (s := releaseClaims { s with combine := none })
    ((congrArg (·[op.ctx]) (releaseClaims_work _).contexts_eq).trans used)

theorem released_claimsHeld : ClaimsHeld (released s op) :=
  (releaseClaims_claimsHeld { s with combine := none }).same (evaluateStraggler_work _ _ _).combine_eq
    (evaluateStraggler_work _ _ _).lanes_eq

/-- A stale completion without a drain to finish delivers nothing (R117). -/
theorem staleCompletion_delivers_nothing
    (working : s.control.engine = .running ∨ s.control.engine = .dozing ∨ s.control.engine = .stopping)
    (combine : s.combine = some op) (used : s.contexts[op.ctx] = some x) (fit : readsFit op reads = true)
    (stale : discards op x = true) (waits : x.state = .draining → s.solve.map Solve.ctx = some op.ctx)
    (off : s.control.engine ≠ .stopping ∨ s.unfenced) :
    ∃ t y, exec (.combineCompletion reads fault) s = .next t ∧ t.contexts[op.ctx] = some y ∧
      y.front = x.front ∧ y.roster = x.roster ∧ y.basis = x.basis ∧ (x.state ≠ .steering → y.state = x.state) ∧
      (s.control.engine ≠ .stopping → ∀ o ∈ newOutputs s t, o.isWrite = false) ∧
      (t.combine = none → ∀ (p : LaneId), ∀ k ∈ t.lanes[p].stock, k.claim = none) ∧
      (s.control.engine = .stopping → t.control.engine = .stopping ∧
        ∀ (p : LaneId), ∀ k ∈ t.lanes[p].stock, k.reservation.isSome = true ∨ k.claim.isSome = true) := by
  have w := released_work s op
  obtain ⟨y, used', state, front, roster, basis⟩ := released_keeps used
  have live : (released s op).halted = false := (halted_of_engine_eq w.engine_eq).trans (live_of_working working)
  have ended : finishIfDue op.ctx (released s op) = released s op := by
    by_cases draining : x.state = .draining
    · have solving : (released s op).solve = s.solve := w.solver_eq.1
      refine finishIfDue_of_inFlight ?_
      rw [inFlight, solving, waits draining, beq_self_eq_true, Bool.true_or]
    · exact finishIfDue_of_not_draining used' (state ▸ draining)
  have run := exec_combineCompletion working combine fit
    (actOnCombine_discarded (s := { s with combine := none }) reads fault used stale) live ended live
  have whole : Work ([.marks, .retry, .edit] ++ turnKinds) { s with combine := none } (turnOver op.ctx (released s op)) :=
    w.mono.trans (turnOver_work op.ctx _).mono
  have control : (turnOver op.ctx (released s op)).control = s.control := whole.control_eq
  obtain ⟨x', used'', kept⟩ := (turnOver_contextsKept op.ctx _).some used'
  obtain ⟨os, out, good⟩ := whole.issues
  have out : (turnOver op.ctx (released s op)).out = s.out ++ os := out
  have claims : ClaimsHeld (turnOver op.ctx (released s op)) := turnOver_claimsHeld released_claimsHeld
  generalize turnOver op.ctx (released s op) = v at run control used'' out claims
  have unfenced (stopping : s.control.engine = .stopping) : v.unfenced :=
    unfenced_of_control control (off.resolve_left (not_not.2 stopping))
  obtain ⟨z, there, kept'⟩ := (endEvent_contextsKept v).some used''
  have all := kept.trans kept'
  refine ⟨_, z, run, there, all.front.trans front, all.roster.trans roster, all.basis.trans basis,
    fun steered => (all.state (state ▸ steered)).trans state, fun other => ?_, ?_, fun stopping => ⟨?_, ?_⟩⟩
  · obtain ⟨os', out', good'⟩ := endEvent_writes_none (s := v) (control ▸ other)
    rw [newOutputs_of_append (os := os ++ os') (by rw [out', out, List.append_assoc])]
    exact fun o mem => (List.mem_append.1 mem).elim (fun mem => (good o mem).2.1 (by decide)) (good' o)
  · exact endEvent_claimsHeld claims
      (off.imp (fun other => control ▸ other) (unfenced_of_control control))
  · exact endEvent_stays (control ▸ stopping) (unfenced stopping) used''
  · exact endEvent_marked (control ▸ stopping) (unfenced stopping)

/-- A stale completion that a drain waited for finishes it (R45). -/
theorem staleCompletion_finishes
    (working : s.control.engine = .running ∨ s.control.engine = .dozing ∨ s.control.engine = .stopping)
    (combine : s.combine = some op) (used : s.contexts[op.ctx] = some x) (fit : readsFit op reads = true)
    (draining : x.state = .draining) (alone : s.solve.map Solve.ctx ≠ some op.ctx) (off : s.unfenced) :
    let t := endEvent (turnOver op.ctx (finishContext op.ctx (releaseClaims { s with combine := none })))
    exec (.combineCompletion reads fault) s = .next t ∧ t.contexts[op.ctx] = none ∧ t.finishedTail = some x.orderAddr ∧
      (s.control.engine = .stopping → contextsInUse s = 1 → t.control.engine = .stopped ∧
        t.events.bits.getLsbD 7 = true ∧
        ∀ (p : LaneId), ∀ k ∈ t.lanes[p].stock, k.reservation.isSome = true ∨ k.claim.isSome = true) := by
  have w := releaseClaims_work { s with combine := none }
  have used' : (releaseClaims { s with combine := none }).contexts[op.ctx] = some x :=
    (congrArg (·[op.ctx]) w.contexts_eq).trans used
  have calm : Calm (releaseClaims { s with combine := none }) :=
    (calm_of_working off working).of_control w.control_eq
  have acted : actOnCombine op reads fault { s with combine := none } = releaseClaims { s with combine := none } := by
    rw [actOnCombine_discarded (s := { s with combine := none }) reads fault used
      ((discards_iff op x).2 (.inl (by rw [draining]; decide))), evaluateStraggler_other false used' (by rw [draining]; decide)]
  have idle : inFlight (releaseClaims { s with combine := none }) op.ctx = false := by
    have solving : (releaseClaims { s with combine := none }).solve = s.solve := w.solver_eq.1
    have combining : (releaseClaims { s with combine := none }).combine = none := w.combine_eq
    rw [inFlight, solving, combining, beq_false_of_ne alone]
    rfl
  have run := exec_combineCompletion working combine fit acted calm.2 (finishIfDue_due used' draining idle)
    (calm.of_control (finishContext_control _ calm)).2
  obtain ⟨free, tail, stops⟩ := drainEnds calm used' (turnOver_work op.ctx)
  have control : (turnOver op.ctx (finishContext op.ctx (releaseClaims { s with combine := none }))).control = s.control :=
    ((turnOver_work _ _).control_eq.trans (finishContext_control _ calm)).trans w.control_eq
  generalize turnOver op.ctx (finishContext op.ctx (releaseClaims { s with combine := none })) = v at run free tail stops control
  refine ⟨run, free, tail, fun stopping one => ?_⟩
  obtain ⟨stopped, raised⟩ := stops (w.engine_eq.trans stopping)
    ((contextsInUse_congr w.usage_eq).trans one)
  exact ⟨stopped, raised, endEvent_marked (control ▸ stopping) (unfenced_of_control control off)⟩

end

/-! ## Survivors that fail (R15, R118, R119) -/

/-- A member whose read failed, or whose window differs from its check in a selected lane. -/
def badSurvivor (S : Nat) (mask : BitVec 4) (mr : Member × SurvivorRead) : Prop :=
  mr.1.readFailed = true ∨ mr.2.data = .failed ∨
    (mr.1.checks.isSome = true ∧ (mr.2.check = .failed ∨
      ∃ t : Fin 4, mask.getLsbD t.val = true ∧
        (windowCheck (padWindow S (bytesOf mr.2.data))).getD t.val 0 ≠ (bytesOf mr.2.check).getD t.val 0))

theorem readFailed_iff (r : ReadResult) : readFailed r = true ↔ r = .failed := by cases r <;> simp [readFailed]

theorem checkMatches_iff (mask : BitVec 4) (a b : List Byte) : checkMatches mask a b = true ↔
    ∀ t : Fin 4, mask.getLsbD t.val = true → a.getD t.val 0 = b.getD t.val 0 := by
  simp only [checkMatches, List.all_eq_true, List.mem_range, Bool.or_eq_true, Bool.not_eq_true', beq_iff_eq,
    ← Bool.not_eq_true, ← imp_iff_not_or]
  exact ⟨fun h t => h t.val t.isLt, fun h t lt => h ⟨t, lt⟩⟩

theorem survivor_fails_iff (S : Nat) (mask : BitVec 4) (mr : Member × SurvivorRead) :
    (survivorOf S mr.1 mr.2).fails mask = true ↔ badSurvivor S mask mr := by
  have differs : checkMatches mask (windowCheck (padWindow S (bytesOf mr.2.data))) (bytesOf mr.2.check) = false ↔
      ∃ t : Fin 4, mask.getLsbD t.val = true ∧
        (windowCheck (padWindow S (bytesOf mr.2.data))).getD t.val 0 ≠ (bytesOf mr.2.check).getD t.val 0 := by
    rw [← Bool.not_eq_true, checkMatches_iff]
    simp only [not_forall, exists_prop]
  simp only [Survivor.fails, survivorOf, badSurvivor, Bool.or_eq_true, Bool.and_eq_true, readFailed_iff, Bool.not_eq_true',
    differs]
  tauto

theorem survivors_eq (S : Nat) (ms : List Member) (reads : List SurvivorRead) :
    List.zipWith (survivorOf S) ms reads = (List.zip ms reads).map fun mr => survivorOf S mr.1 mr.2 := by
  rw [List.zip, List.map_zipWith]

/-- The fragments of the members that fail. -/
theorem failing_frags {S : Nat} {mask : BitVec 4} {ms : List Member} {reads : List SurvivorRead} {frags : List Nat}
    (sizes : ms.length = reads.length) (sub : frags.Sublist (ms.map Member.frag)) (nodup : (ms.map Member.frag).Nodup)
    (bad : ∀ mr ∈ List.zip ms reads, mr.1.frag ∈ frags ↔ badSurvivor S mask mr) :
    ((List.zipWith (survivorOf S) ms reads).filter fun v => v.fails mask).map Survivor.frag = frags := by
  have members : (List.zip ms reads).map (fun mr => mr.1.frag) = ms.map Member.frag := by
    rw [show (fun mr : Member × SurvivorRead => mr.1.frag) = Member.frag ∘ Prod.fst from rfl, ← List.map_map,
      List.map_fst_zip (Nat.le_of_eq sizes)]
  have failing : ∀ mr ∈ List.zip ms reads, (survivorOf S mr.1 mr.2).fails mask = decide (mr.1.frag ∈ frags) :=
    fun mr mem => by rw [Bool.eq_iff_iff, survivor_fails_iff, decide_eq_true_iff, bad mr mem]
  calc ((List.zipWith (survivorOf S) ms reads).filter fun v => v.fails mask).map Survivor.frag
      = ((List.zip ms reads).filter fun mr => (survivorOf S mr.1 mr.2).fails mask).map fun mr => mr.1.frag := by
        rw [survivors_eq, List.filter_map, List.map_map]
        rfl
    _ = ((List.zip ms reads).filter fun mr => decide (mr.1.frag ∈ frags)).map fun mr => mr.1.frag := by
        rw [List.filter_congr failing]
    _ = (ms.map Member.frag).filter fun f => decide (f ∈ frags) := by
        rw [← members, List.filter_map]
        rfl
    _ = frags := (eq_filter_of_sublist sub nodup fun f _ => decide_eq_true_iff.symm).symm

/-- A completion that stands (R117). -/
theorem not_discards {op : Combine} {x : Context} (active : x.state = .active) (uncancelled : x.cancelPending = false)
    (unaborted : x.abortPending = false) (change : x.changeCount = op.changeCount) (generation : x.generation = op.generation) :
    discards op x = false := by
  rw [← Bool.not_eq_true, discards_iff]
  simp [active, uncancelled, unaborted, change, generation]

theorem actOnCombine_stands {s : State} {op : Combine} {x : Context} (reads : List SurvivorRead) (fault : Bool)
    (used : s.contexts[op.ctx] = some x) (stands : discards op x = false) :
    actOnCombine op reads fault s =
      let S := x.profile.windowBytes
      let survivors := List.zipWith (survivorOf S) op.members reads
      let failing := survivors.filter fun v => v.fails x.profile.mask
      if !failing.isEmpty then
        loseCandidates op.ctx (failing.map Survivor.frag) .corrupt (releaseClaims s)
      else if endsInMismatch x.profile.mask S op.rows survivors fault then
        enterDraining op.ctx .internalMismatch .none (releaseClaims s)
      else
        inOrder
          ((outputWindows S op.rows survivors).mapIdx (fun i output => handOver op.ctx x op i output) ++
            [finishWindow op.ctx (op.window + 1)]) s := by
  simp only [actOnCombine, used, stands, Bool.false_eq_true, if_false]

/-- Settles O48: the release of claims lane by lane (`releaseOn_all`), the stale completions
(`staleCompletion_delivers_nothing`, `staleCompletion_finishes`), and the survivors that fail (`failing_frags`). -/
theorem badCombinesDeliverNothing : Obligations.BadCombinesDeliverNothing := by
  unfold Obligations.BadCombinesDeliverNothing
  refine ⟨fun s => ?_, fun s op x reads fault working combine used fit grantee stale => ⟨fun waits off =>
    staleCompletion_delivers_nothing working combine used fit ((discards_iff op x).2 stale) waits off,
    fun draining alone off => ?_⟩,
    fun s op x reads fault engine combine used fit active uncancelled unaborted change generation off => ?_⟩
  · have h := releaseClaims_released s
    refine ⟨h.lane, fun p => (h.retry p).trans (or_congr Iff.rfl (and_congr ?_ Iff.rfl)), h.rest⟩
    simp only [Bool.and_eq_true, Option.isNone_iff_eq_none]
  · obtain ⟨run, free, tail, stops⟩ := staleCompletion_finishes (fault := fault) working combine used fit draining alone off
    exact ⟨_, run, rfl, free, tail, stops⟩
  · intro S windowOf bad pairs u after
    have working : s.control.engine = .running ∨ s.control.engine = .dozing ∨ s.control.engine = .stopping :=
      engine.imp_right .inl
    have acted := actOnCombine_stands (s := { s with combine := none }) reads fault used
      (not_discards active uncancelled unaborted change generation)
    have calm : Calm u := (calm_of_working off working).of_control (releaseClaims_work _).control_eq
    have sizes : op.members.length = reads.length := beq_iff_eq.1 (Bool.and_eq_true_iff.1 fit).1
    refine ⟨fun frags some sub nodup these => ?_, fun good checked faulty => ?_⟩
    · have failing := failing_frags (S := S) (mask := x.profile.mask) sizes sub nodup these
      have found : (!((List.zipWith (survivorOf S) op.members reads).filter fun v => v.fails x.profile.mask).isEmpty) = true := by
        rw [Bool.not_eq_true', List.isEmpty_eq_false_iff]
        exact fun none => some (by rw [← failing, none]; rfl)
      have lost := acted.trans (if_pos found)
      rw [show x.profile.windowBytes = S from rfl, failing] at lost
      have kept := calm.of_control (loseCandidates_work op.ctx frags .corrupt u).control_eq
      exact exec_combineCompletion working combine fit lost kept.2 rfl (kept.of_control (finishIfDue_control _ kept)).2
    · have passing : (List.zipWith (survivorOf S) op.members reads).filter (fun v => v.fails x.profile.mask) = [] := by
        refine List.filter_eq_nil_iff.2 fun v mem fails => ?_
        rw [survivors_eq] at mem
        obtain ⟨mr, pair, rfl⟩ := List.mem_map.1 mem
        exact good mr pair ((survivor_fails_iff S _ mr).1 fails)
      have all : (List.zipWith (survivorOf S) op.members reads).all Survivor.checked = true := by
        rw [survivors_eq, List.all_map, List.all_eq_true]
        exact fun mr mem => checked mr.1 (List.of_mem_zip mem).1
      have mismatch : endsInMismatch x.profile.mask S op.rows (List.zipWith (survivorOf S) op.members reads) fault = true := by
        rw [endsInMismatch, all, faulty]
        rfl
      have drained := acted.trans ((if_neg (by
        rw [show x.profile.windowBytes = S from rfl, passing]; simp)).trans (if_pos mismatch))
      have kept := calm.of_control (enterDraining_work op.ctx .internalMismatch .none u).control_eq
      exact exec_combineCompletion working combine fit drained kept.2 rfl (kept.of_control (finishIfDue_control _ kept)).2

end Sys2Proof.Proofs

/-! PROOFS. STOP and the end of STOPPING (R159). -/

namespace Sys2Proof.Proofs

open Sys2Proof Sys2Proof.Machine

-- In order: declarations that run `decide` side by side wait for each other, each on a thread of its own.
set_option Elab.async false

/-! ## Effects in order that do not end in HALTED -/

/-- What every effect keeps while the engine is not halted, an event that does not halt the engine keeps. -/
theorem inOrder_live_keeps {P : State → Prop} {fs : List (State → State)} {s : State}
    (h : ∀ f ∈ fs, ∀ t, t.halted = false → (f t).halted = false → P t → P (f t)) (start : P s)
    (live : (inOrder fs s).halted = false) : s.halted = false ∧ P (inOrder fs s) := by
  induction fs generalizing s with
  | nil => exact ⟨live, start⟩
  | cons f fs ih =>
    have going : s.halted = false := by
      rw [← Bool.not_eq_true]
      intro halted
      rw [inOrder_halted s _ halted, halted] at live
      cases live
    rw [inOrder_step _ _ _ going] at live ⊢
    have still : (f s).halted = false := by
      rw [← Bool.not_eq_true]
      intro halted
      rw [inOrder_halted _ _ halted, halted] at live
      cases live
    exact ⟨going, (ih (fun g mem => h g (List.mem_cons_of_mem _ mem)) (h f List.mem_cons_self s going still start) live).2⟩

/-- The same for one effect per item of a list without repeats, with what the items done so far have made. -/
theorem inOrder_live_nodup {α : Type} {P : List α → State → Prop} {f : α → State → State}
    (step : ∀ (done : List α) (a : α) (t : State), a ∉ done → t.halted = false → (f a t).halted = false → P done t →
      P (done ++ [a]) (f a t)) {s : State} (start : P [] s) (l : List α) (nodup : l.Nodup)
    (live : (inOrder (l.map f) s).halted = false) : P l (inOrder (l.map f) s) := by
  induction l using List.reverseRecOn with
  | nil => exact start
  | append_singleton l a ih =>
    rw [List.nodup_append_comm, List.singleton_append, List.nodup_cons] at nodup
    rw [List.map_append, List.map_singleton] at live ⊢
    rcases inOrder_last (l.map f) (f a) s with ⟨e, halted⟩ | ⟨e, going⟩
    · rw [e, halted] at live
      cases live
    · rw [e] at live ⊢
      exact step l a _ nodup.1 going live (ih nodup.2 going)

/-! ## The contexts aborted (R89) -/

/-- A context after the STOP has begun. -/
def aborted (x : Context) : Context :=
  if x.state = .draining then { x with abortPending := true }
  else { x with
    state := .draining, outcome := .aborted, detail := .none, abortPending := true
    settleDeadline := none, stragglerDeadline := none, stragglerArmed := false }

theorem aborted_state (x : Context) : (aborted x).state = .draining ∧ (aborted x).abortPending = true := by
  unfold aborted
  split
  · next draining => exact ⟨draining, rfl⟩
  · exact ⟨rfl, rfl⟩

theorem modifyContext_none {s : State} {c : CtxId} (f : Context → Context) (free : s.contexts[c] = none) :
    modifyContext c f s = s := by simp only [modifyContext, free]

theorem enterDraining_draining {s : State} {c : CtxId} {x : Context} (o : OrderOutcome) (d : Detail)
    (used : s.contexts[c] = some x) (draining : x.state = .draining) : enterDraining c o d s = s := by
  simp only [enterDraining, used, draining, if_true]

theorem abortContext_contexts (s : State) (c : CtxId) :
    (abortContext s c).contexts = s.contexts.set c ((s.contexts[c]).map aborted) := by
  cases used : s.contexts[c] with
  | none =>
    have free : enterDraining c .aborted .none s = s := by simp only [enterDraining, used]
    rw [abortContext, modifyContext_none _ used, free, Option.map_none, ← used]
    exact (Vector.set_getElem_self _).symm
  | some x =>
    rw [abortContext, modifyContext_some _ _ _ _ used, Option.map_some, aborted]
    by_cases draining : x.state = .draining
    · rw [if_pos draining, enterDraining_draining (x := { x with abortPending := true }) _ _ (setContext_same _ _ _) draining]
      rfl
    · rw [if_neg draining, enterDraining_some (x := { x with abortPending := true }) _ _ (setContext_same _ _ _) draining]
      exact Vector.set_set _ c.isLt

theorem abortContexts_getElem (s : State) (c : CtxId) : (abortContexts s).contexts[c] = (s.contexts[c]).map aborted := by
  have all := foldl_nodup (P := fun done t => ∀ c : CtxId,
      t.contexts[c] = if c ∈ done then (s.contexts[c]).map aborted else s.contexts[c]) (f := abortContext) (s := s)
    (fun done a t _ next h d => by
      rw [abortContext_contexts, getElem_set_ctx]
      by_cases same : a = d
      · subst same
        rw [if_pos rfl, h, if_neg next, if_pos (by simp)]
      · rw [if_neg same, h]
        simp [show d ≠ a from fun e => same e.symm])
    (fun _ => by simp) (List.finRange 48) (List.nodup_finRange 48) c
  rwa [if_pos (List.mem_finRange c)] at all

/-! ## The pen emptied (R61) -/

theorem dropPenFront_pen (s : State) : (dropPenFront s).pen = s.pen.tail := by
  unfold dropPenFront
  split
  · next e => simp [e]
  · next e _ e' => rw [(writeNoteOutcome_work _ _ _).pen_eq, e']; rfl

theorem emptyPen_pen {s : State} (live : (emptyPen s).halted = false) : (emptyPen s).pen = [] := by
  have each (l : List PenEntry) : ∀ s : State, s.pen.length ≤ l.length →
      (inOrder (l.map fun _ => dropPenFront) s).halted = false → (inOrder (l.map fun _ => dropPenFront) s).pen = [] := by
    induction l with
    | nil => exact fun s short _ => List.length_eq_zero_iff.1 (Nat.le_zero.1 short)
    | cons e l ih =>
      intro s short live
      have going := (inOrder_live_keeps (P := fun _ => True) (fun _ _ _ _ _ _ => trivial) trivial live).1
      rw [List.map_cons, inOrder_step _ _ _ going] at live ⊢
      refine ih _ ?_ live
      rw [dropPenFront_pen, List.length_tail]
      exact Nat.sub_le_of_le_add short
  exact each s.pen s le_rfl live

/-! ## The drains finished (R45) -/

theorem modifyLost_others (c : CtxId) (i : Nat) (f : LostEntry → LostEntry) (s : State) {d : CtxId} (other : d ≠ c) :
    (modifyLost c i f s).contexts[d] = s.contexts[d] := by
  cases used : s.contexts[c] with
  | none => rw [modifyLost, modifyContext_none _ used]
  | some x =>
    rw [modifyLost, modifyContext_some _ _ _ _ used]
    exact (getElem_set_ctx c d _).trans (if_neg fun e => other e.symm)

theorem closeFragment_other (c : CtxId) (i : Nat) (status : DeliveryStatus) (s : State) {d : CtxId} (other : d ≠ c) :
    (closeFragment c i status s).contexts[d] = s.contexts[d] := by
  unfold closeFragment
  split
  · rfl
  · split
    · rfl
    · split
      · refine inOrder_keeps (P := fun t => t.contexts[d] = s.contexts[d]) (fun f mem t kept => ?_) rfl
        simp only [List.mem_cons, List.not_mem_nil, or_false] at mem
        rcases mem with rfl | rfl
        · rw [(returnRecord_work _ _ _ t).contexts_eq, kept]
        · rw [modifyLost_others _ _ _ _ other, kept]
      · rfl

theorem freeContext_getElem (c d : CtxId) (s : State) :
    (freeContext c s).contexts[d] = if d = c then none else s.contexts[d] := by
  rw [(freeContext_released c s).rest]
  refine (getElem_set_ctx c d none).trans ?_
  by_cases same : d = c
  · rw [if_pos same.symm, if_pos same]
  · rw [if_neg same, if_neg fun e => same e.symm]

/-- A drain's end that does not halt the engine frees its context and touches no other. -/
theorem finishContext_contexts {s : State} {c : CtxId} (live : (finishContext c s).halted = false) (d : CtxId) :
    (finishContext c s).contexts[d] = if d = c then none else s.contexts[d] := by
  cases used : s.contexts[c] with
  | none =>
    have same : finishContext c s = s := by simp only [finishContext, used]
    rw [same]
    split
    · next e => rw [e, used]
    · rfl
  | some x =>
    have split : finishContext c s = inOrder (((List.range x.lost.length).map (fun i => closeFragment c i .closedEarly) ++
        [fun t => finishAppend x.orderAddr x.result x.notify t]) ++ [freeContext c]) s := by
      simp only [finishContext, used, List.append_assoc, List.cons_append, List.nil_append]
    rcases inOrder_last ((List.range x.lost.length).map (fun i => closeFragment c i .closedEarly) ++
        [fun t => finishAppend x.orderAddr x.result x.notify t]) (freeContext c) s with ⟨e, halted⟩ | ⟨e, -⟩
    · rw [split, e, halted] at live
      cases live
    · rw [split, e, freeContext_getElem]
      refine if_ctx_congr Iff.rfl (fun _ => rfl) fun other => ?_
      refine inOrder_keeps (P := fun t => t.contexts[d] = s.contexts[d]) (fun f mem t kept => ?_) rfl
      rcases List.mem_append.1 mem with closes | last
      · obtain ⟨i, -, rfl⟩ := List.mem_map.1 closes
        rw [closeFragment_other _ _ _ _ other, kept]
      · obtain rfl := List.mem_singleton.1 last
        exact (congrArg (·[d]) (finishAppend_work _ _ _ t).contexts_eq).trans kept

theorem finishIfDue_contexts {s : State} {c : CtxId} (live : (finishIfDue c s).halted = false) (d : CtxId) :
    (finishIfDue c s).contexts[d] = if d = c ∧ drainDue s c = true then none else s.contexts[d] := by
  unfold finishIfDue at live ⊢
  split
  · next due =>
    rw [if_pos due] at live
    exact (finishContext_contexts live d).trans (if_congr (and_iff_left due).symm rfl rfl)
  · next idle => exact (if_neg fun h => idle h.2).symm

theorem drainDue_congr {s t : State} {c : CtxId} (contexts : t.contexts[c] = s.contexts[c]) (solve : t.solve = s.solve)
    (combine : t.combine = s.combine) : drainDue t c = drainDue s c := by
  simp only [drainDue, contexts, inFlight_congr solve combine]

/-- What the drains' ends have done to some of the contexts. -/
def DrainsEnded (s : State) (done : List CtxId) (t : State) : Prop :=
  (∀ d : CtxId, t.contexts[d] = if d ∈ done ∧ drainDue s d = true then none else s.contexts[d]) ∧
    t.solve = s.solve ∧ t.combine = s.combine

theorem drainsEnded_step {s t : State} {done : List CtxId} {c : CtxId} (next : c ∉ done)
    (live : (finishIfDue c t).halted = false) (h : DrainsEnded s done t) :
    DrainsEnded s (done ++ [c]) (finishIfDue c t) := by
  obtain ⟨contexts, solve, combine⟩ := h
  have w := finishIfDue_work c t
  have here : t.contexts[c] = s.contexts[c] := by rw [contexts, if_neg fun h => next h.1]
  have due : drainDue t c = drainDue s c := drainDue_congr here solve combine
  refine ⟨fun d => ?_, w.solver_eq.1.trans solve, w.combine_eq.trans combine⟩
  rw [finishIfDue_contexts live d, contexts, due]
  by_cases same : d = c
  · subst same
    simp [next]
  · simp [same]

theorem finishAllDue_ended {s : State} (live : (finishAllDue s).halted = false) :
    DrainsEnded s (List.finRange 48) (finishAllDue s) :=
  inOrder_live_nodup (P := DrainsEnded s) (fun _ _ _ next _ live h => drainsEnded_step next live h)
    ⟨fun _ => by simp, rfl, rfl⟩ _ (List.nodup_finRange 48) live

/-! ## The unmarked blanks linked UNUSED (R150) -/

theorem linkUnused_stock (p q : LaneId) (e : StockEntry) {s : State} (live : s.halted = false) :
    (linkUnused p e s).lanes[q].stock = if p = q then s.lanes[p].stock.erase e else s.lanes[q].stock := by
  rw [linkUnused, inOrder_step _ _ _ live,
    (inOrder_one_work (returnRecord_work p e.blank.addr (RecordFields.unopened .unused)) _).stock_eq q, modifyStock, setLane]
  dsimp only
  rw [getElem_set_lane]
  split <;> rfl

theorem linkUnusedOn_stock (p q : LaneId) {s : State} (live : (linkUnusedOn p s).halted = false) :
    (linkUnusedOn p s).lanes[q].stock =
      if p = q then s.lanes[p].stock.filter (fun k => k.reservation.isSome || k.claim.isSome) else s.lanes[q].stock := by
  have each (l : List StockEntry) : ∀ t : State, (inOrder (l.map (linkUnused p)) t).halted = false →
      (inOrder (l.map (linkUnused p)) t).lanes[q].stock = if p = q then t.lanes[p].stock.diff l else t.lanes[q].stock := by
    induction l with
    | nil =>
      intro t _
      split
      · next e => rw [e]; rfl
      · rfl
    | cons e l ih =>
      intro t live
      have going := (inOrder_live_keeps (P := fun _ => True) (fun _ _ _ _ _ _ => trivial) trivial live).1
      rw [List.map_cons, inOrder_step _ _ _ going] at live ⊢
      rw [ih _ live, linkUnused_stock p p e going, linkUnused_stock p q e going, if_pos rfl]
      split
      · rw [List.diff_cons]
      · rfl
  rw [linkUnusedOn, each _ s live, diff_filter]
  refine if_congr Iff.rfl (List.filter_congr fun k _ => available_eq k) rfl

/-- What the UNUSED appends of some lanes have done. -/
def UnusedLinked (s : State) (done : List LaneId) (t : State) : Prop :=
  (∀ q : LaneId, t.lanes[q].stock = if q ∈ done then
    s.lanes[q].stock.filter (fun k => k.reservation.isSome || k.claim.isSome) else s.lanes[q].stock) ∧
  t.control.engine = s.control.engine

theorem engine_of_frame {s t : State} (frame : UnitFrame s t) (live : t.halted = false) :
    t.control.engine = s.control.engine := by
  rcases frame.run with same | ⟨halted, -⟩
  · exact congrArg Prod.fst same
  · rw [(halted_iff t).2 halted] at live
    cases live

theorem unusedLinked_step {s t : State} {done : List LaneId} {p : LaneId} (next : p ∉ done)
    (live : (linkUnusedOn p t).halted = false) (h : UnusedLinked s done t) :
    UnusedLinked s (done ++ [p]) (linkUnusedOn p t) := by
  obtain ⟨stock, engine⟩ := h
  refine ⟨fun q => ?_, (engine_of_frame (linkUnusedOn_frame p t) live).trans engine⟩
  rw [linkUnusedOn_stock p q live, stock, stock, if_neg next]
  by_cases same : p = q
  · subst same
    simp
  · simp [same, show q ≠ p from fun e => same e.symm]

/-- The end of an event in STOPPING, where no write is refused. -/
theorem concludeStop_live {s : State} (stopping : s.control.engine = .stopping) (live : (concludeStop s).halted = false) :
    (concludeStop s).control.engine = (if contextsInUse (concludeStop s) = 0 then .stopped else .stopping) ∧
      (∀ p : LaneId, (concludeStop s).lanes[p].stock =
        s.lanes[p].stock.filter fun k => k.reservation.isSome || k.claim.isSome) := by
  rw [concludeStop, if_pos stopping] at live ⊢
  rcases inOrder_last ((List.finRange 32).map linkUnusedOn) enterStopped s with ⟨e, halted⟩ | ⟨e, going⟩
  · rw [e, halted] at live
    cases live
  · rw [e]
    obtain ⟨stock, engine⟩ := inOrder_live_nodup (P := UnusedLinked s)
      (fun _ _ _ next _ live h => unusedLinked_step next live h) ⟨fun _ => by simp, rfl⟩ _ (List.nodup_finRange 32) going
    generalize inOrder ((List.finRange 32).map linkUnusedOn) s = u at stock engine
    have w := enterStopped_work u
    refine ⟨?_, fun p => ?_⟩
    · rw [contextsInUse_congr w.usage_eq]
      unfold enterStopped
      split
      · rw [raise_control]
      · rw [engine, stopping]
    · rw [w.lanes_eq, stock, if_pos (List.mem_finRange p)]

/-! ## The whole STOP -/

/-- No reload is in flight, no idle deadline runs, and its mark is clear. -/
def Untimed (s : State) : Prop :=
  s.control.reloadAt = none ∧ s.control.idleDeadline = none ∧ s.control.idleElapsed = false

theorem Act.untimed {k : Kind} {s t : State} (a : Act k s t) (hk : k ∉ [Kind.engine, .load, .reset]) (h : Untimed s) :
    Untimed t := by
  cases a with
  | halt _ c => rcases halt_cases c s with ⟨_, e⟩ | ⟨_, ev, os, _, e⟩ <;> rw [e] <;> [exact h; exact ⟨rfl, rfl, rfl⟩]
  | engine | load | reset => exact absurd (by decide) hk
  | _ => exact h

theorem Work.untimed {K : List Kind} {s t : State} (w : Work K s t) (h : Untimed s)
    (hK : ∀ k ∈ K, k ∉ [Kind.engine, .load, .reset] := by decide) : Untimed t :=
  w.keeps (fun k mem _ _ act => act.untimed (hK k mem)) h

theorem linkUnused_untimed (p : LaneId) (e : StockEntry) {s : State} (h : Untimed s) : Untimed (linkUnused p e s) := by
  have w : Work (.unstock :: chainKinds) s (linkUnused p e s) := inOrder_cons_work (fun t => Work.act (.unstock t p e))
    (inOrder_one_work fun t => (returnRecord_work _ _ _ t).mono) s
  exact w.untimed h

theorem enterStopped_untimed {s : State} (h : Untimed s) : Untimed (enterStopped s) := by
  unfold enterStopped
  split
  · exact (raise_work _ _).untimed (by exact h)
  · exact h

theorem concludeStop_untimed {s : State} (h : Untimed s) : Untimed (concludeStop s) := by
  unfold concludeStop
  split
  · refine inOrder_keeps (fun f mem t kept => ?_) h
    rcases List.mem_append.1 mem with unused | last
    · obtain ⟨p, -, rfl⟩ := List.mem_map.1 unused
      refine inOrder_keeps (fun g mem u kept => ?_) kept
      obtain ⟨e, -, rfl⟩ := List.mem_map.1 mem
      exact linkUnused_untimed p e kept
    · obtain rfl := List.mem_singleton.1 last
      exact enterStopped_untimed kept
  · exact h

/-- The parts of a STOP in turn. -/
def stopRun (s : State) : State := inOrder [abortContexts, emptyPen, finishAllDue, concludeStop] (enterStopping s)

theorem stopRun_untimed (s : State) : Untimed (stopRun s) := by
  refine inOrder_keeps (fun f mem t kept => ?_) ⟨rfl, rfl, rfl⟩
  simp only [List.mem_cons, List.not_mem_nil, or_false] at mem
  rcases mem with rfl | rfl | rfl | rfl
  · exact (abortContexts_work t).untimed kept
  · exact (emptyPen_work t).untimed kept
  · exact (finishAllDue_work t).untimed kept
  · exact concludeStop_untimed kept

theorem stopRun_rest (s : State) (w : WalkerId) : (stopRun s).walker w = Walker.rest := by
  have rest : StoppedAtRest (stopRun s) := by
    refine inOrder_keeps (fun f mem t kept => ?_) ⟨.inl rfl, rfl, rfl, rfl⟩
    simp only [List.mem_cons, List.not_mem_nil, or_false] at mem
    rcases mem with rfl | rfl | rfl | rfl
    · exact kept.of_frame (abortContexts_frame t)
    · exact kept.of_frame (emptyPen_frame t)
    · exact kept.of_frame (finishAllDue_frame t)
    · exact concludeStop_atRest kept
  exact (walkersAtRest_iff _).1 rest.2 w

/-- A STOP that halts nothing, part by part. -/
theorem stopRun_live {s : State} (live : (stopRun s).halted = false) :
    stopRun s = concludeStop (finishAllDue (emptyPen (abortContexts (enterStopping s)))) ∧
      (emptyPen (abortContexts (enterStopping s))).halted = false ∧
      (finishAllDue (emptyPen (abortContexts (enterStopping s)))).halted = false := by
  have step {f : State → State} {fs : List (State → State)} {t : State} (live : (inOrder (f :: fs) t).halted = false) :
      inOrder (f :: fs) t = inOrder fs (f t) :=
    inOrder_step _ _ _ (inOrder_live_keeps (P := fun _ => True) (fun _ _ _ _ _ _ => trivial) trivial live).1
  have going {fs : List (State → State)} {t : State} (live : (inOrder fs t).halted = false) : t.halted = false :=
    (inOrder_live_keeps (P := fun _ => True) (fun _ _ _ _ _ _ => trivial) trivial live).1
  unfold stopRun at live ⊢
  have one := step live
  rw [one] at live ⊢
  have two := step live
  rw [two] at live ⊢
  have three := step live
  have pen := going live
  rw [three] at live ⊢
  exact ⟨inOrder_one _ (going live), pen, going live⟩

/-- What a STOP that halts nothing leaves. -/
theorem stopRun_leaves {s : State} (live : (stopRun s).halted = false) :
    (stopRun s).pen = [] ∧
      (∀ c : CtxId, (stopRun s).contexts[c] = if inFlight s c = true then (s.contexts[c]).map aborted else none) ∧
      (∀ (p : LaneId), ∀ e ∈ (stopRun s).lanes[p].stock, e.reservation.isSome = true ∨ e.claim.isSome = true) ∧
      (stopRun s).solve = s.solve ∧ (stopRun s).combine = s.combine ∧
      (stopRun s).control.engine = (if contextsInUse (stopRun s) = 0 then .stopped else .stopping) := by
  obtain ⟨parts, pen_live, drains_live⟩ := stopRun_live live
  rw [parts] at live ⊢
  have abort := abortContexts_work (enterStopping s)
  have pen := emptyPen_work (abortContexts (enterStopping s))
  obtain ⟨contexts, solve, combine⟩ := finishAllDue_ended drains_live
  have emptied := (finishAllDue_work _).pen_eq.trans (emptyPen_pen pen_live)
  have engine := engine_of_frame (((abortContexts_frame (enterStopping s)).trans (emptyPen_frame _)).trans
    (finishAllDue_frame _)) drains_live
  have started (c : CtxId) : (emptyPen (abortContexts (enterStopping s))).contexts[c] = (s.contexts[c]).map aborted :=
    (congrArg (·[c]) pen.contexts_eq).trans (abortContexts_getElem (enterStopping s) c)
  have solving : (emptyPen (abortContexts (enterStopping s))).solve = s.solve := pen.solve_eq.trans abort.solve_eq
  have combining : (emptyPen (abortContexts (enterStopping s))).combine = s.combine := pen.combine_eq.trans abort.combine_eq
  generalize emptyPen (abortContexts (enterStopping s)) = v at *
  generalize finishAllDue v = u at *
  have w := concludeStop_work u
  have due (c : CtxId) : drainDue v c = ((s.contexts[c]).isSome && !inFlight s c) := by
    rw [← inFlight_congr solving combining]
    cases used : s.contexts[c] with
    | none => simp [drainDue, started, used]
    | some x => simp [drainDue, started, used, (aborted_state x).1]
  obtain ⟨ended, stock⟩ := concludeStop_live (engine.trans rfl) live
  refine ⟨w.pen_eq.trans emptied, fun c => ?_, fun p e mem => ?_, w.solve_eq.trans (solve.trans solving),
    w.combine_eq.trans (combine.trans combining), ended⟩
  · rw [w.contexts_eq, contexts, due, started]
    cases s.contexts[c] <;> cases inFlight s c <;> simp
  · rw [stock] at mem
    simpa using (List.mem_filter.1 mem).2

/-! ## With the fences off: the writes (R49, R61) -/

theorem byteWrite_mem_issued {a value : Nat} {ws : List PlannedWrite} (mem : fieldWrite a 1 value ∈ ws) (n : Nat) :
    byteWrite a value ∈ issued ws n := by
  induction ws generalizing n with
  | nil => cases mem
  | cons w ws ih =>
    rw [issued]
    rcases List.mem_cons.1 mem with rfl | mem
    · exact List.mem_append_left _ (by simp [fieldWrite, writeRequests_byte])
    · exact List.mem_append_right _ (ih mem _)

theorem finishAppend_out {s : State} (order : Nat) (r : OrderResult) (notify : Bool) (h : Calm s) :
    s.out ++ issued (finishWrites s order r) s.out.length <+: (finishAppend order r notify s).out := by
  rw [finishAppend_permitted order r notify h.2 (h.permits _)]
  dsimp only
  split
  · exact (raise_work .orderFinished { issue (finishWrites s order r) s with finishedTail := some order }).logKept.2.2.2
  · exact List.prefix_refl _

/-- The two bytes of a finished order that a reader looks at first (R49). -/
theorem finishContext_writes {s : State} {c : CtxId} {x : Context} (h : Calm s) (used : s.contexts[c] = some x) :
    byteWrite (x.orderAddr + 0x089) x.outcome.code ∈ newOutputs s (finishContext c s) ∧
      byteWrite (x.orderAddr + 0x088) 2 ∈ newOutputs s (finishContext c s) := by
  have calm := h.of_control (inOrder_closes c x h).2
  obtain ⟨os, closes⟩ := (closeAll_work c x s).logKept.2.2.2
  obtain ⟨os', finish⟩ := finishAppend_out x.orderAddr x.result x.notify calm
  have out : (finishContext c s).out = s.out ++ (os ++ (issued (finishWrites (closeAll c x s) x.orderAddr x.result)
      (closeAll c x s).out.length ++ os')) := by
    rw [(finishContext_leaves h used).2.1, ← finish, ← closes]
    simp only [List.append_assoc]
  rw [newOutputs_of_append out]
  have outcome : fieldWrite (x.orderAddr + 0x089) 1 x.outcome.code ∈ finishWrites (closeAll c x s) x.orderAddr x.result := by
    simp [finishWrites, Context.result]
  have finished : fieldWrite (x.orderAddr + 0x088) 1 2 ∈ finishWrites (closeAll c x s) x.orderAddr x.result := by
    simp [finishWrites]
  exact ⟨List.mem_append_right _ (List.mem_append_left _ (byteWrite_mem_issued outcome _)),
    List.mem_append_right _ (List.mem_append_left _ (byteWrite_mem_issued finished _))⟩

/-- The pen emptied with the fences off. -/
theorem emptyPen_calm {s : State} (h : Calm s) : ∃ ev os, emptyPen s = { s with pen := [], events := ev, out := s.out ++ os } ∧
    os.filter Output.isWrite = s.pen.map (fun e => byteWrite (e.addr + 0x28) 0x18) ∧
    (s.pen ≠ [] → ev.bits.getLsbD 3 = true) ∧ ∀ i, s.events.bits.getLsbD i = true → ev.bits.getLsbD i = true := by
  have each (l : List PenEntry) : ∀ s : State, Calm s → s.pen = l → ∃ ev os, inOrder (l.map fun _ => dropPenFront) s =
      { s with pen := [], events := ev, out := s.out ++ os } ∧
        os.filter Output.isWrite = l.map (fun e => byteWrite (e.addr + 0x28) 0x18) ∧
        (l ≠ [] → ev.bits.getLsbD 3 = true) ∧ ∀ i, s.events.bits.getLsbD i = true → ev.bits.getLsbD i = true := by
    induction l with
    | nil =>
      intro s _ pen
      exact ⟨s.events, [], by rw [List.map_nil, inOrder_nil, List.append_nil, ← pen], rfl, fun none => absurd rfl none,
        fun _ set => set⟩
    | cons e l ih =>
      intro s calm pen
      obtain ⟨ev, os, raised, silent, bits⟩ := raise_event .noteDropped (noteByte e.addr 0x18 { s with pen := l })
      have dropped : dropPenFront s = { s with pen := l, events := ev, out := s.out ++ byteWrite (e.addr + 0x28) 0x18 :: os } := by
        have front : dropPenFront s = writeNoteOutcome e.addr .droppedStop { s with pen := l } := by
          simp only [dropPenFront, pen]
        rw [front, writeNoteOutcome_permitted e.addr .droppedStop (by exact calm.2)
          (Tests.writePermitted_of_unfenced (by exact calm.1) _ _)]
        refine (if_pos rfl).trans (raised.trans ?_)
        simp [noteByte]
      have calm' : Calm (dropPenFront s) := calm.of_control (by rw [dropped])
      obtain ⟨ev', os', rest, writes, raised', kept⟩ := ih (dropPenFront s) calm' (by rw [dropped])
      have bit : ev.bits.getLsbD 3 = true := by
        rw [bits, BitVec.getLsbD_or]
        simp [EventBit.mask, EventBit.index]
      refine ⟨ev', byteWrite (e.addr + 0x28) 0x18 :: (os ++ os'), ?_, ?_, fun _ => ?_, fun i set => ?_⟩
      · rw [List.map_cons, inOrder_step _ _ _ calm.2, rest, dropped]
        simp
      · rw [List.map_cons, ← writes, List.filter_cons_of_pos rfl, List.filter_append, silent, List.nil_append]
      · exact kept 3 (by rw [dropped]; exact bit)
      · refine kept i ?_
        rw [dropped]
        dsimp only
        rw [bits, BitVec.getLsbD_or]
        exact Bool.or_eq_true_iff.2 (.inl set)
  exact each s.pen s h rfl

/-! ## With the fences off: the lanes (R46, R146, R149) -/

theorem raised_lanes (b : Bool) (e : EventBit) (s : State) : (if b = true then raise e s else s).lanes = s.lanes := by
  split
  · exact (raise_work e s).lanes_eq
  · rfl

theorem returnRecord_otherLane {s : State} {p q : LaneId} (record : Nat) (f : RecordFields) (h : Calm s) (other : q ≠ p) :
    (returnRecord q record f s).lanes[p] = s.lanes[p] := by
  rw [returnRecord_permitted q record f h.2 (h.permits _)]
  dsimp only
  simp only [raised_lanes]
  exact (getElem_set_lane q p _).trans (if_neg other)

/-- No fragment of the context has an open record on the lane. -/
def noneOpenOn (x : Context) (p : LaneId) : Prop := ∀ e ∈ x.lost, e.lane = some p → e.openRecord = none

theorem closeFragment_tail {s : State} {c : CtxId} {x : Context} {p : LaneId} (i : Nat) (status : DeliveryStatus) (h : Calm s)
    (used : s.contexts[c] = some x) (closed : noneOpenOn x p) :
    (closeFragment c i status s).lanes[p].filledTail = s.lanes[p].filledTail ∧
      ∃ y, (closeFragment c i status s).contexts[c] = some y ∧ noneOpenOn y p := by
  cases entry : x.lost[i]? with
  | none => simp [closeFragment, used, entry, closed]
  | some e =>
    cases opened : e.openRecord with
    | none =>
      rw [closeFragment_closed used entry status opened]
      exact ⟨rfl, x, used, closed⟩
    | some r =>
      cases lane : e.lane with
      | none => simp [closeFragment, used, entry, lane, closed]
      | some q =>
        have other : q ≠ p := fun same => by
          rw [closed e (List.mem_of_getElem? entry) (lane.trans (congrArg _ same))] at opened
          cases opened
        rw [closeFragment_open h used entry status lane opened]
        dsimp only
        rw [returnRecord_otherLane _ _ h other]
        refine ⟨rfl, { x with lost := x.lost.set i { e with openRecord := none } }, Vector.getElem_set_self _, ?_⟩
        intro g mem here
        rcases List.mem_or_eq_of_mem_set mem with old | rfl
        · exact closed g old here
        · rfl

theorem closeAll_tail {s : State} {c : CtxId} {x : Context} {p : LaneId} (h : Calm s) (used : s.contexts[c] = some x)
    (closed : noneOpenOn x p) : (closeAll c x s).lanes[p].filledTail = s.lanes[p].filledTail := by
  have kept (is : List Nat) : ∀ (t : State) (y : Context), Calm t → t.contexts[c] = some y → noneOpenOn y p →
      (is.foldl (fun u i => closeFragment c i .closedEarly u) t).lanes[p].filledTail = t.lanes[p].filledTail := by
    induction is with
    | nil => exact fun _ _ _ _ _ => rfl
    | cons i is ih =>
      intro t y calm used closed
      obtain ⟨tail, z, used', closed'⟩ := closeFragment_tail i .closedEarly calm used closed
      exact (ih _ z (calm.of_control (closeFragment_control c i _ calm)) used' closed').trans tail
  exact kept _ s x h used closed

/-! ## With the fences off: the drains finished (R45) -/

theorem closeFragment_bitsKept (c : CtxId) (i : Nat) (status : DeliveryStatus) (s : State) :
    BitsKept s (closeFragment c i status s) := by
  unfold closeFragment
  split
  · exact .refl s
  · split
    · exact .refl s
    · split
      · refine inOrder_bitsKept (fun f mem t => ?_) s
        simp only [List.mem_cons, List.not_mem_nil, or_false] at mem
        rcases mem with rfl | rfl
        · exact returnRecord_bitsKept _ _ _ t
        · exact (modifyLost_work c i (fun e => { e with openRecord := none }) t).bitsKept
      · exact .refl s

theorem finishAppend_bitsKept {s : State} (order : Nat) (r : OrderResult) (notify : Bool) (h : Calm s) :
    BitsKept s (finishAppend order r notify s) := by
  rw [finishAppend_permitted order r notify h.2 (h.permits _)]
  dsimp only
  split
  · exact (raise_bitsKept _ _).after rfl
  · exact .of_events rfl

theorem finishContext_bitsKept {s : State} (c : CtxId) (h : Calm s) : BitsKept s (finishContext c s) := by
  cases used : s.contexts[c] with
  | none =>
    have same : finishContext c s = s := by simp only [finishContext, used]
    rw [same]
    exact .refl s
  | some x =>
    rw [finishContext_calm h used]
    exact ((foldl_bitsKept (fun t i => closeFragment_bitsKept c i .closedEarly t) _ s).trans
      (finishAppend_bitsKept _ _ _ (h.of_control (inOrder_closes c x h).2))).trans (freeContext_work c _).bitsKept

/-- What the ends of the drains among some contexts leave, with the fences off. -/
structure DrainsFinished (s : State) (done : List CtxId) (t : State) : Prop where
  control : t.control = s.control
  ended : DrainsEnded s done t
  stock : ∀ p : LaneId, t.lanes[p].stock = s.lanes[p].stock.map fun k => { k with
    reservation := if (k.reservation.any fun q => decide (q.ctx ∈ done) && drainDue s q.ctx) = true then none else k.reservation }
  tail : ∀ p : LaneId, (∀ c ∈ done, ∀ x, s.contexts[c] = some x → drainDue s c = true → noneOpenOn x p) →
    t.lanes[p].filledTail = s.lanes[p].filledTail
  grows : s.out <+: t.out
  writes : ∀ c ∈ done, ∀ x, s.contexts[c] = some x → drainDue s c = true →
    byteWrite (x.orderAddr + 0x089) x.outcome.code ∈ newOutputs s t ∧ byteWrite (x.orderAddr + 0x088) 2 ∈ newOutputs s t
  bits : BitsKept s t

theorem drainDue_some {s : State} {c : CtxId} (due : drainDue s c = true) : ∃ x, s.contexts[c] = some x := by
  cases used : s.contexts[c] with
  | none => simp [drainDue, used] at due
  | some x => exact ⟨x, rfl⟩

theorem newOutputs_subset {s t u : State} (a : s.out <+: t.out) (b : t.out <+: u.out) {o : Output} :
    (o ∈ newOutputs s t → o ∈ newOutputs s u) ∧ (o ∈ newOutputs t u → o ∈ newOutputs s u) := by
  obtain ⟨os, a⟩ := a
  obtain ⟨os', b⟩ := b
  rw [newOutputs_of_append a.symm, newOutputs_of_append b.symm,
    newOutputs_of_append (os := os ++ os') (by rw [← b, ← a, List.append_assoc])]
  exact ⟨List.mem_append_left _, List.mem_append_right _⟩

/-- One more reservation test. -/
theorem unreserve_step (k : StockEntry) (done : List CtxId) (due : CtxId → Bool) (c : CtxId) :
    ({ k with reservation := if (k.reservation.any fun q => decide (q.ctx ∈ done ++ [c]) && due q.ctx) = true then none
        else k.reservation } : StockEntry) =
      (fun j : StockEntry => if due c = true then unreserved c j else j) { k with
        reservation := if (k.reservation.any fun q => decide (q.ctx ∈ done) && due q.ctx) = true then none
          else k.reservation } := by
  cases held : k.reservation with
  | none => cases due c <;> simp [unreserved, StockEntry.reservedBy]
  | some q =>
    by_cases mine : q.ctx = c
    · subst mine
      by_cases before : q.ctx ∈ done <;> cases d : due q.ctx <;> simp [unreserved, StockEntry.reservedBy, before, d]
    · by_cases before : q.ctx ∈ done <;> cases d : due c <;> cases d' : due q.ctx <;>
        simp [unreserved, StockEntry.reservedBy, before, mine, d']

theorem drainsFinished_step {s t : State} {done : List CtxId} {c : CtxId} (calm : Calm s) (next : c ∉ done)
    (h : DrainsFinished s done t) : DrainsFinished s (done ++ [c]) (finishIfDue c t) := by
  have calm' : Calm t := calm.of_control h.control
  obtain ⟨contexts, solve, combine⟩ := h.ended
  have here : t.contexts[c] = s.contexts[c] := by rw [contexts, if_neg fun h => next h.1]
  have same : drainDue t c = drainDue s c := drainDue_congr here solve combine
  have ended := drainsEnded_step next (calm'.of_control (finishIfDue_control c calm')).2 h.ended
  cases due : drainDue s c with
  | true =>
    obtain ⟨x, used⟩ := drainDue_some due
    have used' := here.trans used
    have run : finishIfDue c t = finishContext c t := if_pos (same.trans due)
    rw [run] at ended ⊢
    obtain ⟨-, -, lanes, -, -⟩ := finishContext_leaves calm' used'
    obtain ⟨outcome, finished⟩ := finishContext_writes calm' used'
    have grows := (finishContext_work c t).logKept.2.2.2
    refine ⟨(finishContext_control c calm').trans h.control, ended, fun p => ?_, fun p closed => ?_, h.grows.trans grows,
      fun d mem y usedd dued => ?_, h.bits.trans (finishContext_bitsKept c calm')⟩
    · rw [(lanes p).2, h.stock p, List.map_map]
      exact List.map_congr_left fun k _ => ((unreserve_step k done (drainDue s) c).trans (if_pos due)).symm
    · rw [(lanes p).1, closeAll_tail calm' used' (closed c (by simp) x used due)]
      exact h.tail p fun d mem => closed d (List.mem_append_left _ mem)
    · rcases List.mem_append.1 mem with before | last
      · obtain ⟨a, b⟩ := h.writes d before y usedd dued
        exact ⟨(newOutputs_subset h.grows grows).1 a, (newOutputs_subset h.grows grows).1 b⟩
      · obtain rfl := List.mem_singleton.1 last
        obtain rfl := Option.some.inj (usedd.symm.trans used)
        exact ⟨(newOutputs_subset h.grows grows).2 outcome, (newOutputs_subset h.grows grows).2 finished⟩
  | false =>
    have run : finishIfDue c t = t := if_neg (by rw [same, due]; exact Bool.false_ne_true)
    rw [run] at ended ⊢
    have only (d : CtxId) (mem : d ∈ done ++ [c]) (dued : drainDue s d = true) : d ∈ done := by
      rcases List.mem_append.1 mem with before | last
      · exact before
      · rw [List.mem_singleton.1 last, due] at dued
        cases dued
    refine ⟨h.control, ended, fun p => ?_, fun p closed => ?_, h.grows, fun d mem y usedd dued =>
      h.writes d (only d mem dued) y usedd dued, h.bits⟩
    · rw [h.stock p]
      exact List.map_congr_left fun k _ =>
        ((unreserve_step k done (drainDue s) c).trans (if_neg (by rw [due]; exact Bool.false_ne_true))).symm
    · exact h.tail p fun d mem => closed d (List.mem_append_left _ mem)

theorem finishAllDue_calm {s : State} (h : Calm s) : DrainsFinished s (List.finRange 48) (finishAllDue s) := by
  have run := inOrder_calm (fs := (List.finRange 48).map finishIfDue) h fun f mem t calm => by
    obtain ⟨c, -, rfl⟩ := List.mem_map.1 mem
    exact finishIfDue_control c calm
  have same : s.lanes = s.lanes ∧ ∀ p : LaneId, s.lanes[p].stock = s.lanes[p].stock.map fun k => { k with
      reservation := if (k.reservation.any fun q => decide (q.ctx ∈ ([] : List CtxId)) && drainDue s q.ctx) = true then none
        else k.reservation } := ⟨rfl, fun p => by simp⟩
  have all := foldl_nodup (P := DrainsFinished s) (f := fun t c => finishIfDue c t) (s := s)
    (fun _ _ _ _ next h' => drainsFinished_step h next h')
    ⟨rfl, ⟨fun _ => by simp, rfl, rfl⟩, same.2, fun _ _ => rfl, List.prefix_refl _, fun _ mem => absurd mem List.not_mem_nil,
      .refl s⟩
    (List.finRange 48) (List.nodup_finRange 48)
  rw [finishAllDue, run.1, List.foldl_map]
  exact all

/-! ## The whole STOP with the fences off -/

/-- The contexts of which a STOP ends the drain at once. -/
def freedAtStop (s : State) (c : CtxId) : Bool := (s.contexts[c]).isSome && !inFlight s c

/-- The parts of a STOP with the fences off. -/
theorem stopRun_calm {s : State} (off : s.unfenced) : ∃ v u : State,
    stopRun s = concludeStop u ∧ DrainsFinished v (List.finRange 48) u ∧ v.lanes = s.lanes ∧ v.unfenced ∧
      v.control.engine = .stopping ∧ v.control.anchor = s.control.anchor ∧
      (∀ c : CtxId, v.contexts[c] = (s.contexts[c]).map aborted) ∧ (∀ c, drainDue v c = freedAtStop s c) ∧
      (∃ os, v.out = s.out ++ os ∧ os.filter Output.isWrite = s.pen.map fun e => byteWrite (e.addr + 0x28) 0x18) ∧
      (s.pen ≠ [] → v.events.bits.getLsbD 3 = true) := by
  have w := abortContexts_work (enterStopping s)
  have calm₀ : Calm (enterStopping s) := ⟨off, rfl⟩
  have control₀ : (abortContexts (enterStopping s)).control = (enterStopping s).control := w.control_eq
  have pen : (abortContexts (enterStopping s)).pen = s.pen := w.pen_eq
  have lanes : (abortContexts (enterStopping s)).lanes = s.lanes := w.lanes_eq
  have start : (abortContexts (enterStopping s)).out = s.out := w.out_eq
  have flight (c : CtxId) : inFlight (abortContexts (enterStopping s)) c = inFlight s c :=
    inFlight_congr w.solve_eq w.combine_eq c
  have aborts := abortContexts_getElem (enterStopping s)
  have first : stopRun s = inOrder [emptyPen, finishAllDue, concludeStop] (abortContexts (enterStopping s)) :=
    inOrder_step _ _ _ calm₀.2
  have calm : Calm (abortContexts (enterStopping s)) := calm₀.of_control control₀
  generalize abortContexts (enterStopping s) = a at control₀ pen lanes start flight aborts first calm
  obtain ⟨ev, os, emptied, writes, raised, -⟩ := emptyPen_calm calm
  have calm₁ : Calm (emptyPen a) := calm.of_control (by rw [emptied])
  have drains := finishAllDue_calm calm₁
  have run : stopRun s = concludeStop (finishAllDue (emptyPen a)) := by
    rw [first, inOrder_step _ _ _ calm.2, inOrder_pair _ _ calm₁.2 (calm₁.of_control drains.control).2]
  have contexts (c : CtxId) : (emptyPen a).contexts[c] = (s.contexts[c]).map aborted := by
    rw [emptied]
    exact aborts c
  have control : (emptyPen a).control = (enterStopping s).control := by rw [emptied, ← control₀]
  refine ⟨emptyPen a, _, run, drains, by rw [emptied, ← lanes], calm₁.1, by rw [control]; rfl, by rw [control]; rfl, contexts,
    fun c => ?_, ⟨os, by rw [emptied, ← start], pen ▸ writes⟩, fun some => ?_⟩
  · have idle : inFlight (emptyPen a) c = inFlight s c := by
      rw [emptied, ← flight c]
      rfl
    rw [drainDue, contexts, idle, freedAtStop]
    cases s.contexts[c] with
    | none => rfl
    | some x => simp [(aborted_state x).1]
  · rw [emptied]
    exact raised (pen ▸ some)

theorem aborted_outcome (x : Context) :
    (aborted x).orderAddr = x.orderAddr ∧ (aborted x).lost = x.lost ∧
      (aborted x).outcome.code = if x.state = .draining then x.outcome.code else 5 := by
  unfold aborted
  split <;> exact ⟨rfl, rfl, rfl⟩

theorem exec_stop_walking {s : State} (walking : s.control.engine = .running ∨ s.control.engine = .dozing) :
    exec .stop s = .next (stopRun s) := by
  have moves : s.walking = true := by rcases walking with e | e <;> simp [State.walking, e]
  rw [exec_stop, if_pos moves]
  rfl

/-- Settles O13: a STOP part by part, as far as it goes where a write is refused (`stopRun_leaves`) and with the fences off
(`stopRun_calm`), and the end of a later event in STOPPING (`concludeStop_calm`). -/
theorem stopDrainsTheEngine : Obligations.StopDrainsTheEngine := by
  unfold Obligations.StopDrainsTheEngine
  refine ⟨fun s walking => ?_, fun s walking off => ?_, fun s => ⟨concludeStop_of_not_stopping, fun stopping off => ?_⟩⟩
  · obtain ⟨reload, deadline, elapsed⟩ := stopRun_untimed s
    refine ⟨stopRun s, exec_stop_walking walking, stopRun_rest s, reload, deadline, elapsed, fun off => ?_, fun live => ?_⟩
    · obtain ⟨v, u, run, drains, -, unfenced, stopping, -⟩ := stopRun_calm off
      have calm : Calm v := calm_of_working unfenced (.inr (.inr stopping))
      rw [run, (concludeStop_calm ((congrArg (·.engine) drains.control).trans stopping)
        (calm.of_control drains.control).1).1]
      split <;> decide
    · obtain ⟨pen, contexts, stock, solve, combine, engine⟩ := stopRun_leaves (not_halted live)
      refine ⟨pen, fun c x used => ?_, stock, solve, combine, engine⟩
      rw [contexts] at used
      split at used
      · next busy =>
        obtain ⟨y, -, rfl⟩ := Option.map_eq_some_iff.1 used
        exact ⟨(aborted_state y).1, (aborted_state y).2, busy⟩
      · cases used
  · intro freed stocked marked
    obtain ⟨v, u, run, drains, lanes, unfenced, stopping, anchor, aborts, due, ⟨os, out, writes⟩, raised⟩ := stopRun_calm off
    have calm : Calm v := calm_of_working unfenced (.inr (.inr stopping))
    have stopping' : u.control.engine = .stopping := (congrArg (·.engine) drains.control).trans stopping
    obtain ⟨engine, ended, left⟩ := concludeStop_calm stopping' (calm.of_control drains.control).1
    have live : (stopRun s).halted = false := by
      rw [run]
      exact not_halted (by rw [engine]; split <;> decide)
    obtain ⟨-, contexts, -⟩ := stopRun_leaves live
    have last := (concludeStop_work u).logKept.2.2.2
    have first : s.out <+: v.out := out ▸ List.prefix_append _ _
    refine ⟨stopRun s, exec_stop_walking walking, ?_, fun some => ?_, fun c free => ?_, fun c x used => ⟨fun busy draining => ?_,
      fun busy live => ?_, fun idle => ?_⟩, fun p => ?_, fun none => ?_⟩
    · obtain ⟨os', later⟩ := drains.grows.trans last
      rw [newWrites_of_append (os := os ++ os') (by rw [run, ← later, out, List.append_assoc]), List.filter_append, writes,
        List.take_left' (by simp)]
    · rw [run]
      exact concludeStop_bitsKept u 3 (drains.bits 3 (raised some))
    · rw [contexts, free]
      split <;> rfl
    · rw [contexts, if_pos busy, used, Option.map_some, aborted, if_pos draining]
    · rw [contexts, if_pos busy, used, Option.map_some, aborted, if_neg live]
    · obtain ⟨addr, -, code⟩ := aborted_outcome x
      obtain ⟨outcome, finished⟩ := drains.writes c (List.mem_finRange c) (aborted x) (by rw [aborts, used]; rfl)
        (by rw [due, freedAtStop, used, idle]; rfl)
      rw [addr, code] at outcome
      rw [addr] at finished
      have whole {o : Output} (mem : o ∈ newOutputs v u) : o ∈ newOutputs s (stopRun s) :=
        run ▸ (newOutputs_subset (first.trans drains.grows) last).1 ((newOutputs_subset first drains.grows).2 mem)
      refine ⟨by rw [contexts, idle]; rfl, List.mem_filter.2 ⟨whole outcome, rfl⟩, List.mem_filter.2 ⟨whole finished, rfl⟩⟩
    · obtain ⟨stock, unused⟩ := left p
      have before : u.lanes[p].stock = stocked p := by
        rw [drains.stock p, lanes]
        refine List.map_congr_left fun k _ => ?_
        simp only [List.mem_finRange, decide_true, Bool.true_and, due, freed, freedAtStop]
      rw [before] at stock unused
      refine ⟨by rw [run, stock], u.lanes[p].filledTail, ?_, fun closed => ?_⟩
      · have unmarked : ((stocked p).filter fun k => !marked k) =
            (stocked p).filter fun k => k.reservation.isNone && k.claim.isNone :=
          List.filter_congr fun k _ => by simp [marked]
        rw [unmarked, run]
        refine linkedUnused_mono unused (by rw [drains.control, anchor]) ?_
        obtain ⟨a, first⟩ := first.trans drains.grows
        obtain ⟨b, last⟩ := last
        rw [newOutputs_of_append last.symm, newOutputs_of_append (os := a ++ b) (by rw [← last, ← first, List.append_assoc])]
        exact (List.suffix_append _ _).isInfix
      · rw [drains.tail p fun c _ y used dued => ?_, lanes]
        rw [aborts] at used
        obtain ⟨x, here, rfl⟩ := Option.map_eq_some_iff.1 used
        exact fun e mem lane => closed c x here ((due c).symm.trans dued) e ((aborted_outcome x).2.1 ▸ mem) lane
    · rw [run] at none ⊢
      exact ended ((contextsInUse_congr (concludeStop_work u).usage_eq).symm.trans none)
  · obtain ⟨engine, raised, lanes⟩ := concludeStop_calm stopping off
    have w := concludeStop_work s
    exact ⟨engine, raised, lanes, w.contexts_eq, w.pen_eq, w.solve_eq, w.combine_eq, w.arbiter_eq, concludeStop_finishedTail s⟩

end Sys2Proof.Proofs

/-! PROOFS. Candidates lost by a live context (R68, R86, R94). -/

namespace Sys2Proof.Proofs

open Sys2Proof Sys2Proof.Machine

/-! ## The context itself (R17, R18, R68) -/

section
variable (x : Context) (frags : List Nat) (st : CandState)

/-- The roster when these candidates are lost. -/
def lostRoster : List Candidate :=
  x.roster.map fun k => if k.frag ∈ frags then { k with state := st, ranges := [], role := .spare } else k

/-- The usable candidates that are left. -/
def leftUsable : List Candidate := (lostRoster x frags st).filter fun k => k.state = .awaited ∨ k.state = .landing

/-- The margin that is left. -/
def leftMargin : Int := ((leftUsable x frags st).length : Int) - x.profile.k

/-- The basis members that are left. -/
def keptBasis : List Nat := x.basis.filter fun f => ¬f ∈ frags

/-- The spares that fill the basis up. -/
def placedSpares : List Nat :=
  ((ranked x.front ((leftUsable x frags st).filter fun k => k.role = .spare)).take
    (x.profile.k - (keptBasis x frags).length)).map Candidate.frag

/-- The context with its margin and class anew. -/
def lostContext : Context := { x with
  basis := keptBasis x frags, roster := lostRoster x frags st, margin := leftMargin x frags st
  urgency := if leftMargin x frags st < 0 then x.urgency else min x.hint (min (leftMargin x frags st).toNat 3) }

theorem lose_eq (live : x.state ≠ .draining) : (x.lose frags st).remargin = lostContext x frags st := by
  have roster : x.roster.map (fun c =>
      if frags.contains c.frag then { c with state := st, ranges := [], role := .spare } else c) = lostRoster x frags st :=
    List.map_congr_left fun k _ => by rw [List.contains_eq_mem]; exact if_congr decide_eq_true_iff rfl rfl
  have basis : (x.basis.filter fun f => !frags.contains f) = keptBasis x frags :=
    List.filter_congr fun f _ => by rw [List.contains_eq_mem, decide_not]
  have usables : ((lostRoster x frags st).filter Candidate.usable) = leftUsable x frags st :=
    List.filter_congr fun k _ => usable_eq k
  simp only [Context.lose, Context.remargin, Context.usables, roster, basis, usables, urgencyOf, live, or_false]
  rfl

/-- The basis filled up again with the best-ranked usable spares. -/
def rebased : Context := { lostContext x frags st with
  attempts := 0, changeCount := x.changeCount + 1
  basis := (keptBasis x frags ++ placedSpares x frags st).insertionSort (· ≤ ·)
  roster := (lostRoster x frags st).map fun k => { k with
    tried := decide (k.frag ∈ placedSpares x frags st)
    role := if k.frag ∈ keptBasis x frags ++ placedSpares x frags st then .basis else .spare } }

theorem rebase_eq : (lostContext x frags st).rebase = rebased x frags st := by
  have spares : (lostContext x frags st).usableSpares = (leftUsable x frags st).filter fun k => k.role = .spare := by
    rw [usableSpares_eq, leftUsable, List.filter_filter]
    exact List.filter_congr fun k _ => by rw [Bool.decide_and, Bool.and_comm]
  rw [Context.rebase, spares, startSelection_eq]
  rfl

end

/-! ## The units (R86, R94, R101, R110) -/

/-- A context moved to the back of its new class's lists, when its class has changed. -/
def moveIf (c : CtxId) (before after : Nat) (s : State) : State := if after = before then s else moveClass c after s

theorem moveClass_keeps (c : CtxId) (u : Nat) (s : State) :
    (moveClass c u s).contexts = s.contexts ∧ (moveClass c u s).solve = s.solve := by
  unfold moveClass
  dsimp only
  split <;> split <;> exact ⟨rfl, rfl⟩

theorem moveClass_queue (c : CtxId) (u : Nat) (s : State) : (moveClass c u s).solveQueue =
    if s.solveQueue.contains c then s.solveQueue.erase c ++ [c] else s.solveQueue := by
  unfold moveClass
  dsimp only
  split <;> split <;> rfl

theorem moveClass_ready {c : CtxId} {s : State} (u : Nat) (on : c ∈ s.readyContexts) :
    (moveClass c u s).arbiter.ready = (s.arbiter.ready.map fun l => l.erase c).set (classIndex u)
      ((s.arbiter.ready.map fun l => l.erase c)[classIndex u] ++ [c]) := by
  have listed : onReadyList s c = true := (mem_readyContexts s c).1 on
  have still : onReadyList (if s.solveQueue.contains c then { s with solveQueue := s.solveQueue.erase c ++ [c] } else s) c =
      true := by
    split <;> exact listed
  rw [moveClass, if_pos still]
  split <;> rfl

theorem moveIf_keeps (c : CtxId) (b a : Nat) (s : State) :
    (moveIf c b a s).contexts = s.contexts ∧ (moveIf c b a s).solve = s.solve := by
  unfold moveIf
  split
  · exact ⟨rfl, rfl⟩
  · exact moveClass_keeps c a s

theorem moveIf_queue (c : CtxId) (b a : Nat) (s : State) :
    (∀ pre post, a ≠ b → s.solveQueue = pre ++ c :: post → c ∉ pre → (moveIf c b a s).solveQueue = pre ++ post ++ [c]) ∧
      (a = b ∨ c ∉ s.solveQueue → (moveIf c b a s).solveQueue = s.solveQueue) := by
  refine ⟨fun pre post changed queue fresh => ?_, fun h => ?_⟩
  · rw [moveIf, if_neg changed, moveClass_queue, queue, if_pos (by simp), List.erase_append_right _ fresh,
      List.erase_cons_head]
  · unfold moveIf
    split
    · rfl
    · next changed => rw [moveClass_queue, if_neg fun mem => h.resolve_left changed (List.contains_iff_mem.1 mem)]

theorem mem_moveIf_queue {c : CtxId} (b a : Nat) {s : State} (mem : c ∈ s.solveQueue) : c ∈ (moveIf c b a s).solveQueue := by
  unfold moveIf
  split
  · exact mem
  · rw [moveClass_queue]
    split
    · simp
    · exact mem

theorem loseCandidates_some {s : State} {c : CtxId} {x : Context} (frags : List Nat) (st : CandState)
    (used : s.contexts[c] = some x) (live : x.state ≠ .draining) : loseCandidates c frags st s =
      moveIf c x.urgency (lostContext x frags st).urgency
        (afterLoss c (x.basis.any fun f => frags.contains f) (setContext c (some (lostContext x frags st)) s)) := by
  simp only [loseCandidates, used, lose_eq x frags st live]
  rfl

/-- The context on the queue or being solved, whichever the solver made of its entry (R101, R102). -/
theorem enterQueue_waits {s : State} (c : CtxId) :
    c ∈ (enterQueue c s).solveQueue ∨ (enterQueue c s).solve.map Solve.ctx = some c := by
  have queued : c ∈ (enqueueSolve c s).solveQueue ∨ (enqueueSolve c s).solve.map Solve.ctx = some c := by
    unfold enqueueSolve
    split
    · next here =>
      simpa only [Bool.or_eq_true, List.contains_iff_mem, beq_iff_eq] using here
    · exact .inl (List.mem_append_right _ List.mem_cons_self)
  rw [enterQueue]
  unfold beginNext
  split
  · exact queued
  · next idle =>
    have queued : c ∈ (enqueueSolve c s).solveQueue := queued.resolve_right fun solving => by
      rw [Bool.not_eq_true, Option.isSome_eq_false_iff, Option.isNone_iff_eq_none] at idle
      rw [idle] at solving
      cases solving
    split
    · exact .inl queued
    · next d _ =>
      unfold beginSolve
      split
      · exact .inl queued
      · by_cases same : d = c
        · exact .inr (by rw [same]; rfl)
        · exact .inl ((List.mem_erase_of_ne fun e => same e.symm).2 queued)

/-! ## What follows a loss, by the state of the context (R85, R86, R94) -/

section
variable {s : State} {c : CtxId} {x : Context}

theorem afterLoss_drains (member : Bool) (used : s.contexts[c] = some x) (below : x.margin < 0) :
    afterLoss c member s = enterDraining c .unrecoverable .loss s := by
  simp only [afterLoss, used, below, if_true]

theorem afterLoss_spares (used : s.contexts[c] = some x) (margin : ¬x.margin < 0) : afterLoss c false s = s := by
  simp only [afterLoss, used, margin, if_false, Bool.false_eq_true]

/-- A member lost outside ACTIVE: the basis filled up, the solve owed in STEERING. -/
theorem afterLoss_stays (used : s.contexts[c] = some x) (margin : ¬x.margin < 0) (live : x.state ≠ .draining)
    (inactive : x.state ≠ .active) : afterLoss c true s = { s with contexts := s.contexts.set c (some { x.rebase with
      solveOwed := if x.state = .steering then true else x.solveOwed }) } := by
  have rebase := modifyContext_some s c Context.rebase x used
  have owed : x.rebase.solveOwed = x.solveOwed := by rw [Context.rebase, startSelection_eq]
  cases state : x.state with
  | draining => exact absurd state live
  | active => exact absurd state inactive
  | steering =>
    simp only [afterLoss, used, margin, if_false, if_true, state, rebase]
    rw [modifyContext_some _ _ _ _ (setContext_same _ _ _)]
    simp only [setContext, Vector.set_set]
  | settling | solving =>
    simp only [afterLoss, used, margin, if_false, if_true, state, rebase, setContext, reduceCtorEq, ← owed]

/-- A member lost in ACTIVE: the basis filled up, and the context to the solve queue. -/
theorem afterLoss_resolves (used : s.contexts[c] = some x) (margin : ¬x.margin < 0) (active : x.state = .active) :
    afterLoss c true s = enterQueue c (unready c { s with contexts := s.contexts.set c (some { x.rebase with
      state := .solving, stragglerArmed := false, stragglerDeadline := none }) }) := by
  have rebase := modifyContext_some s c Context.rebase x used
  simp only [afterLoss, used, margin, if_false, if_true, active, rebase, resolveAgain]
  rw [modifyContext_some _ _ _ _ (setContext_same _ _ _)]
  simp only [setContext, Vector.set_set]
  rfl

end

theorem keptBasis_of_none {x : Context} {frags : List Nat} (none : ¬∃ f ∈ x.basis, f ∈ frags) : keptBasis x frags = x.basis :=
  List.filter_eq_self.2 fun f mem => by simpa using fun lost => none ⟨f, mem, lost⟩

theorem memberLost_iff (x : Context) (frags : List Nat) :
    (x.basis.any fun f => frags.contains f) = true ↔ ∃ f ∈ x.basis, f ∈ frags := by
  simp only [List.any_eq_true, List.contains_iff_mem]

/-- The units after a loss that leaves the lists: the context's places follow its class. -/
theorem moveIf_ready {s : State} {c : CtxId} {b a : Nat} (bound : a ≤ 3) (changed : a ≠ b) (on : c ∈ s.readyContexts)
    (nodup : s.readyContexts.Nodup) (i : Fin 4) : (moveIf c b a s).arbiter.ready[i] =
      (s.arbiter.ready[i].filter fun d => d ≠ c) ++ if i.val = a then [c] else [] := by
  have part : s.arbiter.ready[i].Nodup := (List.nodup_flatten.1 nodup).1 _
    (Vector.mem_toList_iff.2 (Vector.getElem_mem i.isLt))
  have erased : s.arbiter.ready[i].erase c = s.arbiter.ready[i].filter fun d => d ≠ c :=
    (part.erase_eq_filter c).trans (List.filter_congr fun d _ => by rw [bne, beq_eq_decide, decide_not])
  have place : (classIndex a).val = a := Nat.min_eq_left bound
  rw [moveIf, if_neg changed, moveClass_ready a on, ← erased]
  by_cases here : i.val = a
  · obtain rfl : i = classIndex a := Fin.ext (here.trans place.symm)
    rw [if_pos here]
    simp
  · have other : (classIndex a).val ≠ i.val := fun e => here (e.symm.trans place)
    rw [if_neg here]
    simp [other]

/-- Settles O31, by the margin that is left, whether a basis member was lost, and the context's state (R86). -/
theorem lostCandidatesRebaseOrDrain : Obligations.LostCandidatesRebaseOrDrain := by
  unfold Obligations.LostCandidatesRebaseOrDrain
  intro s c x frags st used live _ roster usable kept margin member placed t
  have moved : t = moveIf c x.urgency (lostContext x frags st).urgency
      (afterLoss c (x.basis.any fun f => frags.contains f) (setContext c (some (lostContext x frags st)) s)) :=
    loseCandidates_some frags st used live
  have start : (setContext c (some (lostContext x frags st)) s).contexts[c] = some (lostContext x frags st) :=
    setContext_same _ _ _
  by_cases below : margin < 0
  · have urgency : (lostContext x frags st).urgency = x.urgency := if_pos below
    have drained : t = enterDraining c .unrecoverable .loss (setContext c (some (lostContext x frags st)) s) := by
      rw [moved, moveIf, if_pos urgency]
      exact afterLoss_drains _ start below
    have not_below : ¬0 ≤ margin := Int.not_le.2 below
    refine ⟨{ lostContext x frags st with
        state := .draining, outcome := .unrecoverable, detail := .loss, settleDeadline := none
        stragglerDeadline := none, stragglerArmed := false }, ?_, rfl, rfl, rfl, rfl,
      fun _ => ⟨rfl, rfl, rfl, urgency, rfl, rfl, rfl⟩, fun h => absurd h not_below, fun h => absurd h not_below,
      fun h => absurd h not_below, fun h => absurd h not_below, fun h => absurd h not_below⟩
    rw [drained, enterDraining_some _ _ start live]
    exact Vector.getElem_set_self _
  · have urgency : (lostContext x frags st).urgency = min x.hint (min margin.toNat 3) := if_neg below
    have bound : (lostContext x frags st).urgency ≤ 3 := by rw [urgency]; omega
    by_cases lost : member
    · have rebase := rebase_eq x frags st
      rw [(memberLost_iff x frags).2 lost] at moved
      by_cases active : x.state = .active
      · rw [afterLoss_resolves start below active, rebase] at moved
        have entry : (unready c { setContext c (some (lostContext x frags st)) s with
            contexts := (setContext c (some (lostContext x frags st)) s).contexts.set c (some { rebased x frags st with
              state := .solving, stragglerArmed := false, stragglerDeadline := none }) }).contexts[c] =
            some { rebased x frags st with state := .solving, stragglerArmed := false, stragglerDeadline := none } :=
          Vector.getElem_set_self _
        have waits := enterQueue_waits c (s := unready c { setContext c (some (lostContext x frags st)) s with
            contexts := (setContext c (some (lostContext x frags st)) s).contexts.set c (some { rebased x frags st with
              state := .solving, stragglerArmed := false, stragglerDeadline := none }) })
        refine ⟨{ rebased x frags st with state := .solving, stragglerArmed := false, stragglerDeadline := none }, ?_, rfl,
          rfl, rfl, rfl, fun h => absurd h below, fun _ => urgency, fun _ none => absurd lost none,
          fun _ none => absurd lost none, fun _ h => absurd active (h.resolve_left (not_not.2 lost)),
          fun _ _ => ⟨rfl, rfl, rfl, rfl, (if_pos active).symm, ?_, fun _ => ⟨rfl, rfl, ?_, fun idle empty => ?_⟩⟩⟩
        · rw [moved, (moveIf_keeps _ _ _ _).1, (enterQueue_work _ _).contexts_eq]
          exact entry
        · rw [active]
          rfl
        · rw [moved, (moveIf_keeps _ _ _ _).2]
          exact waits.imp_left (mem_moveIf_queue _ _)
        · have begun := enterQueue_idle _ c _ (by exact idle) (by exact empty) entry
          rw [moved, begun, (moveIf_keeps _ _ _ _).2, (moveIf_queue _ _ _ _).2 (.inr (by
            show c ∉ s.solveQueue
            rw [empty]; exact List.not_mem_nil))]
          exact ⟨rfl, empty⟩
      · rw [afterLoss_stays start below live active, rebase] at moved
        refine ⟨{ rebased x frags st with solveOwed := if x.state = .steering then true else x.solveOwed }, ?_, rfl, rfl, rfl,
          rfl, fun h => absurd h below, fun _ => urgency, fun _ none => absurd lost none, fun _ none => absurd lost none,
          fun _ _ => ?_, fun _ _ => ⟨rfl, rfl, rfl, rfl, (if_neg active).symm, rfl, fun h => absurd h active⟩⟩
        · rw [moved, (moveIf_keeps _ _ _ _).1]
          exact Vector.getElem_set_self _
        · have queue := moveIf_queue c x.urgency (lostContext x frags st).urgency { setContext c (some (lostContext x frags st)) s with
            contexts := (setContext c (some (lostContext x frags st)) s).contexts.set c (some { rebased x frags st with
              solveOwed := if x.state = .steering then true else x.solveOwed }) }
          rw [moved, (moveIf_keeps _ _ _ _).2]
          exact ⟨rfl, queue⟩
    · have none : (x.basis.any fun f => frags.contains f) = false :=
        Bool.eq_false_iff.2 fun h => lost ((memberLost_iff x frags).1 h)
      rw [none, afterLoss_spares start below] at moved
      refine ⟨lostContext x frags st, ?_, rfl, rfl, rfl, rfl, fun h => absurd h below, fun _ => urgency,
        fun _ _ => ⟨rfl, rfl, keptBasis_of_none lost, rfl⟩, fun _ _ changed on nodup i => ?_, fun _ _ => ?_,
        fun _ h => absurd h lost⟩
      · rw [moved, (moveIf_keeps _ _ _ _).1]
        exact start
      · rw [moved]
        exact moveIf_ready (s := setContext c (some (lostContext x frags st)) s) bound changed on nodup i
      · have queue := moveIf_queue c x.urgency (lostContext x frags st).urgency (setContext c (some (lostContext x frags st)) s)
        rw [moved, (moveIf_keeps _ _ _ _).2]
        exact ⟨rfl, queue⟩

end Sys2Proof.Proofs

/-! PROOFS. An order accepted (R41 to R45, R60, R82). -/

namespace Sys2Proof.Proofs

open Sys2Proof Sys2Proof.Machine

/-! ## The context filled, and TAKEN written (R35, R41) -/

theorem writePermitted_within {s : State} {a n b m : Nat} (h : writePermitted s a n = true) (start : a ≤ b)
    (stop : b + m ≤ a + n) : writePermitted s b m = true := by
  rw [writePermitted_iff] at h ⊢
  exact h.imp_right fun covered i low high => covered i (start.trans low) (lt_of_lt_of_le high stop)

theorem lowestFree_eq {s : State} {c : CtxId} (free : s.contexts[c] = none)
    (below : ∀ d : CtxId, d < c → (s.contexts[d]).isSome = true) : lowestFree s = some c := by
  have place : List.finRange 48 = (List.finRange 48).take c ++ c :: (List.finRange 48).drop (c + 1) := by
    have lt : c.val < (List.finRange 48).length := by simp
    have here : (List.finRange 48)[c.val] = c := by simp
    conv_lhs => rw [← List.take_append_drop c.val (List.finRange 48), List.drop_eq_getElem_cons lt, here]
  refine List.find?_eq_some_iff_append.2 ⟨by rw [free]; rfl, _, _, place, fun d mem => ?_⟩
  obtain ⟨i, lt, rfl⟩ := List.mem_iff_getElem.1 mem
  rw [List.length_take, List.length_finRange] at lt
  rw [List.getElem_take, List.getElem_finRange]
  have used := below ⟨i, by omega⟩ (by simp only [Fin.lt_def]; omega)
  simpa using used

/-- The state after an accepted order's context is filled and TAKEN written. -/
def orderTaken (s : State) (a : Nat) (c : CtxId) (x : Context) : State := { recordTaken s with
  out := s.out ++ [byteWrite (a + 0x088) 1], contexts := s.contexts.set c (some x) }

section
variable {s : State} {a : Nat} {image : List Byte} {p : Profile} {c : CtxId}

theorem orderTaken_live (x : Context) (h : takes s .order a) : (orderTaken s a c x).halted = false := recordTaken_live h.1

/-- An order's take that is accepted, when what follows TAKEN leaves the engine going. -/
theorem exec_orderTake_accepted {u : State} (h : takes s .order a) (size : image.length = 512)
    (good : imageLink image ≠ .malformed) (inside : writePermitted s a 512 = true)
    (valid : validateOrder s (readOrder image) = .ok p) (free : s.contexts[c] = none)
    (below : ∀ d : CtxId, d < c → (s.contexts[d]).isSome = true)
    (rest : inOrder [lossAtTake c, applyPenNotes c (readOrder image).tag, settleIfLanded c, settleAtDeadline c, finishIfDue c]
      (orderTaken s a c (newContext s a (readOrder image) p)) = u) (live : u.halted = false) :
    exec (.orderTake (.data image)) s = .next (walkOn .order a (imageLink image) u) := by
  refine exec_take_walkOn (w := .order) h size good ?_ live
  have accepted : validateOrder (recordTaken s) (readOrder image) = .ok p :=
    (validateOrder_congr (recordTaken_profiles s) (recordTaken_contexts s) _).trans valid
  have lowest : lowestFree (recordTaken s) = some c :=
    lowestFree_eq (by simpa using free) (by simpa using below)
  have fresh : newContext (recordTaken s) a (readOrder image) p = newContext s a (readOrder image) p := by
    simp only [newContext, recordTaken_now, recordTaken_timers]
  have started := recordTaken_live h.1
  have written : writeField .fenceOrder (a + resultStateOffset) 1 resultTaken
      (setContext c (some (newContext s a (readOrder image) p)) (recordTaken s)) =
        orderTaken s a c (newContext s a (readOrder image) p) := by
    rw [writeField_byte]
    · simp only [setContext, recordTaken_out, recordTaken_contexts]
      rfl
    · exact writePermitted_within (s := recordTaken s) (by simpa using inside) (by simp [resultStateOffset])
        (by simp only [resultStateOffset]; omega)
  simp only [unitOf, intakeUnit, recordTaken_permitted, inside, if_true, accepted, acceptOrder, lowest, fresh]
  rw [inOrder_step _ _ _ started, inOrder_step _ _ _ (by exact started), written, rest]

end

/-! ## The settle (R82) -/

section
variable {s : State} {c : CtxId} {x : Context}

theorem settleIfLanded_of_not (used : s.contexts[c] = some x) (h : ¬(x.state = .settling ∧ x.settleLanded = true)) :
    settleIfLanded c s = s := by
  simp only [settleIfLanded, used]
  exact if_neg h

theorem settleIfLanded_landed (used : s.contexts[c] = some x) (settling : x.state = .settling)
    (landed : x.settleLanded = true) : settleIfLanded c s = endSettle c s := by
  simp only [settleIfLanded, used]
  exact if_pos ⟨settling, landed⟩

theorem settleAtDeadline_of_none (used : s.contexts[c] = some x) (none : x.settleDeadline = none) :
    settleAtDeadline c s = s := by
  simp only [settleAtDeadline, used, none]

theorem settleAtDeadline_some {t : Nat} (used : s.contexts[c] = some x) (settling : x.state = .settling)
    (deadline : x.settleDeadline = some t) : settleAtDeadline c s = if t ≤ s.now then endSettle c s else s := by
  simp only [settleAtDeadline, used, deadline, settling, true_and]

theorem lossAtTake_enough (used : s.contexts[c] = some x) (enough : x.profile.k ≤ x.roster.length) :
    lossAtTake c s = s := by
  simp only [lossAtTake, used]
  exact if_neg (Nat.not_lt.2 enough)

theorem lossAtTake_short (used : s.contexts[c] = some x) (short : x.roster.length < x.profile.k) :
    lossAtTake c s = enterDraining c .unrecoverable .loss s := by
  simp only [lossAtTake, used]
  exact if_pos short

end

theorem settleLanded_iff (x : Context) : x.settleLanded = true ↔ x.profile.k ≤ (x.roster.filter fun k =>
    (k.state = .awaited ∨ k.state = .landing) ∧
      k.ranges.any (fun r => decide (r.first = 0 ∧ 0 < r.count)) = true).length := by
  have landed (k : Candidate) : k.landed 0 = k.ranges.any fun r => decide (r.first = 0 ∧ 0 < r.count) := by
    rw [landed_eq]
    refine List.any_congr rfl fun r => decide_eq_decide.2 ⟨fun ⟨low, high⟩ => ⟨?_, ?_⟩, fun ⟨low, high⟩ => ⟨?_, ?_⟩⟩ <;> omega
  rw [Context.settleLanded, decide_eq_true_iff, Context.usables, List.filter_filter]
  refine iff_of_eq (congrArg (fun l => x.profile.k ≤ List.length l) (List.filter_congr fun k _ => ?_))
  rw [landed, usable_eq, Bool.decide_and, Bool.decide_eq_true, Bool.and_comm]

/-! ## The pen notes of the tag (R43, R60) -/

theorem applyNote_control {s : State} (c : CtxId) (a : Nat) (n : Note) (h : Calm s) : (applyNote c a n s).control = s.control := by
  have outcome (o : NoteOutcome) (t : State) (calm : Calm t) : (writeNoteOutcome a o t).control = t.control :=
    writeNoteOutcome_control a o calm
  have straggler (t : State) : (evaluateStraggler c false t).control = t.control := (evaluateStraggler_work c false t).control_eq
  unfold applyNote
  split
  · rfl
  · split
    · exact outcome _ s h
    · split
      · unfold applyData
        split
        · rfl
        · split
          · exact outcome _ s h
          · refine (inOrder_calm h fun f mem t calm => ?_).2
            simp only [List.mem_cons, List.not_mem_nil, or_false] at mem
            rcases mem with rfl | rfl | rfl
            · exact (modifyContext_work c (fun x => x.acceptData n) t).control_eq
            · exact outcome _ t calm
            · exact straggler t
      · unfold applyWithdraw
        split
        · rfl
        · split
          · exact outcome _ s h
          · split
            · exact outcome _ s h
            · refine (inOrder_calm h fun f mem t calm => ?_).2
              simp only [List.mem_cons, List.not_mem_nil, or_false] at mem
              rcases mem with rfl | rfl | rfl
              · exact (loseCandidates_work _ _ _ t).control_eq
              · exact outcome _ t calm
              · exact straggler t
      · refine (inOrder_calm h fun f mem t calm => ?_).2
        simp only [List.mem_cons, List.not_mem_nil, or_false] at mem
        rcases mem with rfl | rfl | rfl
        · exact (modifyContext_work c (fun x => { x with cancelPending := true }) t).control_eq
        · exact (enterDraining_work c _ _ t).control_eq
        · exact outcome _ t calm
      · exact outcome _ s h

/-- Notes applied one after another with the fences off. -/
theorem applyPenNotes_calm {s : State} (c : CtxId) (tag : Nat) (h : Calm s) :
    applyPenNotes c tag s = (s.pen.filter fun e => e.note.tag == tag).foldl (fun u e => applyNote c e.addr e.note u)
        { s with pen := s.pen.filter fun e => e.note.tag != tag } ∧ (applyPenNotes c tag s).control = s.control := by
  have run := inOrder_calm (fs := (s.pen.filter fun e => e.note.tag == tag).map fun e => applyNote c e.addr e.note)
    (s := { s with pen := s.pen.filter fun e => e.note.tag != tag }) h fun f mem t calm => by
      obtain ⟨e, -, rfl⟩ := List.mem_map.1 mem
      exact applyNote_control c e.addr e.note calm
  exact ⟨run.1.trans (by rw [List.foldl_map]), run.2⟩

theorem applyPenNotes_none {s : State} (c : CtxId) {tag : Nat} (none : (s.pen.filter fun e => e.note.tag == tag) = []) :
    applyPenNotes c tag s = s := by
  have others : (s.pen.filter fun e => e.note.tag != tag) = s.pen := List.filter_eq_self.2 fun e mem => by
    simpa [bne] using List.filter_eq_nil_iff.1 none e mem
  rw [applyPenNotes, none, others]
  rfl

/-- A DATA note applied to a context that has not begun. -/
def applied (x : Context) (e : PenEntry) : Context := if dataCheck x e.note = none then x.acceptData e.note else x

/-- The outcome of a DATA note. -/
def appliedOutcome (x : Context) (e : PenEntry) : NoteOutcome := (dataCheck x e.note).getD .accepted

theorem applied_state (x : Context) (e : PenEntry) : (applied x e).state = x.state := by
  unfold applied
  split <;> rfl

theorem applyNote_settling {s : State} {c : CtxId} {x : Context} (e : PenEntry) (h : Calm s) (used : s.contexts[c] = some x)
    (settling : x.state = .settling) (kind : e.note.kind = .data) :
    ∃ ev os, applyNote c e.addr e.note s = { s with
        contexts := s.contexts.set c (some (applied x e)), events := ev
        out := s.out ++ byteWrite (e.addr + 0x28) (appliedOutcome x e).code :: os } ∧
      os.filter Output.isWrite = [] := by
  have live : x.state ≠ .draining := by rw [settling]; decide
  have inactive : x.state ≠ .active := by rw [settling]; decide
  rw [applyNote_live e.addr e.note used live, kind]
  cases check : dataCheck x e.note with
  | some o =>
    obtain ⟨ev, os, raised, silent, -⟩ := raise_event .noteDropped (noteByte e.addr o.code s)
    have step : applyData c e.addr e.note s = writeNoteOutcome e.addr o s := by simp only [applyData, used, check]
    have same : applied x e = x := if_neg (by rw [check]; exact Option.some_ne_none o)
    refine ⟨ev, os, ?_, silent⟩
    rw [same, set_same used]
    refine step.trans ?_
    rw [writeNoteOutcome_calm e.addr o h, if_pos (dataCheck_isDrop check), raised]
    simp [noteByte, appliedOutcome, check]
  | none =>
    have accept : applied x e = x.acceptData e.note := if_pos check
    have step : applyData c e.addr e.note s = inOrder [modifyContext c fun x => x.acceptData e.note,
        writeNoteOutcome e.addr .accepted, evaluateStraggler c false] s := by simp only [applyData, used, check]
    refine ⟨s.events, [], ?_, rfl⟩
    refine step.trans ?_
    have calm : Calm (setContext c (some (x.acceptData e.note)) s) := h
    rw [inOrder_step _ _ _ h.2, modifyContext_some _ _ _ _ used, inOrder_step _ _ _ calm.2,
      writeNoteOutcome_calm e.addr .accepted calm]
    refine (inOrder_one _ (by exact h.2)).trans ?_
    change evaluateStraggler c false (noteByte e.addr NoteOutcome.accepted.code (setContext c (some (x.acceptData e.note)) s)) = _
    rw [evaluateStraggler_other (s := noteByte e.addr NoteOutcome.accepted.code (setContext c (some (x.acceptData e.note)) s))
      (x := x.acceptData e.note) false (setContext_same s c _) inactive]
    simp [noteByte, appliedOutcome, check, accept, setContext]

/-- DATA notes applied one after another to a context that settles. -/
theorem applyNotes_settling {c : CtxId} (l : List PenEntry) {s : State} {x : Context} (h : Calm s)
    (used : s.contexts[c] = some x) (settling : x.state = .settling) (kinds : ∀ e ∈ l, e.note.kind = .data) :
    ∃ ev os, l.foldl (fun u e => applyNote c e.addr e.note u) s = { s with
        contexts := s.contexts.set c (some (l.foldl applied x)), events := ev, out := s.out ++ os } ∧
      os.filter Output.isWrite = l.mapIdx fun i e =>
        byteWrite (e.addr + 0x28) (appliedOutcome ((l.take i).foldl applied x) e).code := by
  induction l generalizing s x with
  | nil => exact ⟨s.events, [], by rw [List.foldl_nil, List.foldl_nil, set_same used, List.append_nil], rfl⟩
  | cons e l ih =>
    obtain ⟨ev, os, first, silent⟩ := applyNote_settling e h used settling (kinds e List.mem_cons_self)
    obtain ⟨ev', os', rest, writes⟩ := ih (s := applyNote c e.addr e.note s) (x := applied x e)
      (h.of_control (applyNote_control c _ _ h)) (by rw [first]; exact Vector.getElem_set_self _)
      ((applied_state x e).trans settling) fun d mem => kinds d (List.mem_cons_of_mem _ mem)
    refine ⟨ev', byteWrite (e.addr + 0x28) (appliedOutcome x e).code :: (os ++ os'), ?_, ?_⟩
    · rw [List.foldl_cons, rest, first]
      simp
    · rw [List.filter_cons_of_pos rfl, List.filter_append, silent, List.nil_append, writes, List.mapIdx_cons]
      rfl

/-- A note for a draining context is written DROPPED_LATE. -/
theorem applyNotes_draining {c : CtxId} (l : List PenEntry) {s : State} {x : Context} (h : Calm s)
    (used : s.contexts[c] = some x) (draining : x.state = .draining) :
    ∃ ev os, l.foldl (fun u e => applyNote c e.addr e.note u) s = { s with events := ev, out := s.out ++ os } ∧
      os.filter Output.isWrite = l.map fun e => byteWrite (e.addr + 0x28) 0x14 := by
  induction l generalizing s with
  | nil => exact ⟨s.events, [], by rw [List.foldl_nil, List.append_nil], rfl⟩
  | cons e l ih =>
    obtain ⟨ev, os, raised, silent, -⟩ := raise_event .noteDropped (noteByte e.addr 0x14 s)
    have first : applyNote c e.addr e.note s = { s with events := ev, out := s.out ++ byteWrite (e.addr + 0x28) 0x14 :: os } := by
      have late : applyNote c e.addr e.note s = writeNoteOutcome e.addr .droppedLate s := by
        simp only [applyNote, used, draining, if_true]
      rw [late, writeNoteOutcome_calm e.addr .droppedLate h]
      refine (if_pos rfl).trans (raised.trans ?_)
      simp [noteByte]
    obtain ⟨ev', os', rest, writes⟩ := ih (s := applyNote c e.addr e.note s) (h.of_control (applyNote_control c _ _ h))
      (by rw [first]; exact used)
    refine ⟨ev', byteWrite (e.addr + 0x28) 0x14 :: (os ++ os'), ?_, ?_⟩
    · rw [List.foldl_cons, rest, first]
      simp
    · rw [List.filter_cons_of_pos rfl, List.filter_append, silent, List.nil_append, writes, List.map_cons]

/-- What DATA notes leave of a context as it was. -/
theorem applied_keeps (l : List PenEntry) (x : Context) : ∃ o n r, l.foldl applied x =
    { x with ordinal := o, notesAccepted := n, roster := r } := by
  induction l generalizing x with
  | nil => exact ⟨x.ordinal, x.notesAccepted, x.roster, rfl⟩
  | cons e l ih =>
    obtain ⟨o, n, r, rest⟩ := ih (applied x e)
    refine ⟨o, n, r, rest.trans ?_⟩
    unfold applied
    split <;> rfl

/-- The settle's end, by landings or by an interval of 0, after the notes. -/
theorem settle_ends {s : State} {c : CtxId} {x : Context} {d : Nat} (used : s.contexts[c] = some x) (settling : x.state = .settling)
    (deadline : x.settleDeadline = some d) :
    (x.settleLanded = false → ¬d ≤ s.now → finishIfDue c (settleAtDeadline c (settleIfLanded c s)) = s) ∧
      (x.settleLanded = true ∨ d ≤ s.now →
        finishIfDue c (settleAtDeadline c (settleIfLanded c s)) = endSettle c s ∧
          (endSettle c s).contexts = s.contexts.set c (some x.endSettle)) := by
  have live : x.state ≠ .draining := by rw [settling]; decide
  have contexts : (endSettle c s).contexts = s.contexts.set c (some x.endSettle) := by
    rw [endSettle, (enterQueue_work _ _).contexts_eq, modifyContext_some _ _ _ _ used]
    rfl
  have ended : (endSettle c s).contexts[c] = some x.endSettle := by rw [contexts]; exact Vector.getElem_set_self _
  have solving : x.endSettle.state ≠ .draining := by rw [endSettle_eq]; exact nofun
  have stopped : x.endSettle.settleDeadline = none := by rw [endSettle_eq]
  refine ⟨fun unlanded early => ?_, fun due => ⟨?_, contexts⟩⟩
  · rw [settleIfLanded_of_not used (by simp [unlanded]), settleAtDeadline_some used settling deadline, if_neg early,
      finishIfDue_of_not_draining used live]
  · cases landed : x.settleLanded with
    | true =>
      rw [settleIfLanded_landed used settling landed, settleAtDeadline_of_none ended stopped,
        finishIfDue_of_not_draining ended solving]
    | false =>
      rw [settleIfLanded_of_not used (by simp [landed]), settleAtDeadline_some used settling deadline,
        if_pos (due.resolve_left (by simp [landed])), finishIfDue_of_not_draining ended solving]

/-! ## What follows an acceptance -/

theorem newContext_roster (s : State) (a : Nat) (o : RepairOrder) (p : Profile) :
    (newContext s a o p).roster.length = o.cands.length := by simp [newContext]

theorem newContext_unlanded (s : State) (a : Nat) (o : RepairOrder) {p : Profile} (positive : 0 < p.k) :
    (newContext s a o p).settleLanded = false := by
  refine Bool.eq_false_iff.2 fun landed => ?_
  have enough := (settleLanded_iff _).1 landed
  have none : ((newContext s a o p).roster.filter fun k => (k.state = .awaited ∨ k.state = .landing) ∧
      k.ranges.any (fun r => decide (r.first = 0 ∧ 0 < r.count)) = true) = [] := by
    simp [newContext, newCandidate]
  rw [none] at enough
  exact absurd enough (Nat.not_le.2 positive)

section
variable {s : State} {a : Nat} {p : Profile} {c : CtxId} {x : Context}

theorem orderTaken_used : (orderTaken s a c x).contexts[c] = some x := Vector.getElem_set_self _

theorem orderTaken_pen : (orderTaken s a c x).pen = s.pen := recordTaken_pen s

theorem orderTaken_now : (orderTaken s a c x).now = s.now := recordTaken_now s

theorem orderTaken_calm (h : takes s .order a) (off : s.unfenced) : Calm (orderTaken s a c x) := recordTaken_calm h.1 off

/-- With no pen note of its tag and a settle interval, an order that can be rebuilt waits for its settle end. -/
theorem afterTake_waits {o : RepairOrder} (h : takes s .order a) (positive : 0 < p.k) (enough : p.k ≤ o.cands.length)
    (none : (s.pen.filter fun e => e.note.tag == o.tag) = []) (settles : s.control.timers.settle ≠ 0) :
    inOrder [lossAtTake c, applyPenNotes c o.tag, settleIfLanded c, settleAtDeadline c, finishIfDue c]
      (orderTaken s a c (newContext s a o p)) = orderTaken s a c (newContext s a o p) := by
  have used : (orderTaken s a c (newContext s a o p)).contexts[c] = some (newContext s a o p) := orderTaken_used
  have pen : (orderTaken s a c (newContext s a o p)).pen = s.pen := orderTaken_pen
  have now : (orderTaken s a c (newContext s a o p)).now = s.now := orderTaken_now
  have live : (orderTaken s a c (newContext s a o p)).halted = false := orderTaken_live _ h
  generalize orderTaken s a c (newContext s a o p) = t at used pen now live
  have loss : lossAtTake c t = t := lossAtTake_enough used (by rw [newContext_roster]; exact enough)
  have notes : applyPenNotes c o.tag t = t := applyPenNotes_none c (by rw [pen]; exact none)
  have landed : settleIfLanded c t = t := settleIfLanded_of_not used (by rw [newContext_unlanded s a o positive]; exact nofun)
  have deadline : settleAtDeadline c t = t := by
    rw [settleAtDeadline_some (t := s.now + s.control.timers.settle) used rfl rfl, now]
    exact if_neg (by omega)
  have finish : finishIfDue c t = t := finishIfDue_of_not_draining used nofun
  rw [inOrder_step _ _ _ live, loss, inOrder_step _ _ _ live, notes, inOrder_step _ _ _ live, landed, inOrder_step _ _ _ live,
    deadline, inOrder_one _ live, finish]

theorem lossAtTake_control (s : State) : (lossAtTake c s).control = s.control := (lossAtTake_work c s).control_eq

/-- With the fences off what follows an acceptance is done, each after the other, and the engine goes on. -/
theorem afterTake_calm {t : State} (tag : Nat) (h : Calm t) :
    inOrder [lossAtTake c, applyPenNotes c tag, settleIfLanded c, settleAtDeadline c, finishIfDue c] t =
      finishIfDue c (settleAtDeadline c (settleIfLanded c (applyPenNotes c tag (lossAtTake c t)))) ∧
      (inOrder [lossAtTake c, applyPenNotes c tag, settleIfLanded c, settleAtDeadline c, finishIfDue c] t).control = t.control := by
  refine inOrder_calm h fun f mem u calm => ?_
  simp only [List.mem_cons, List.not_mem_nil, or_false] at mem
  rcases mem with rfl | rfl | rfl | rfl | rfl
  · exact lossAtTake_control u
  · exact (applyPenNotes_calm c tag calm).2
  · exact (settleIfLanded_work c u).control_eq
  · exact (settleAtDeadline_work c u).control_eq
  · exact finishIfDue_control c calm

end

/-! ## The loss at the take (R44, R45, R56) -/

/-- A context that drains for a loss at its take. -/
def lostAtTake (x : Context) : Context :=
  { x with state := .draining, outcome := .unrecoverable, detail := .loss, settleDeadline := none
           stragglerDeadline := none, stragglerArmed := false }

theorem closeAll_noneOpen {s : State} {c : CtxId} {x : Context} (used : s.contexts[c] = some x)
    (closed : ∀ e ∈ x.lost, e.openRecord = none) : closeAll c x s = s := by
  have one (i : Nat) : closeFragment c i .closedEarly s = s := by
    simp only [closeFragment, used]
    cases entry : x.lost[i]? with
    | none => rfl
    | some e =>
      dsimp only
      rw [closed e (List.mem_of_getElem? entry)]
      cases e.lane <;> rfl
  have all (is : List Nat) : is.foldl (fun u i => closeFragment c i .closedEarly u) s = s := by
    induction is with
    | nil => rfl
    | cons i is ih => rw [List.foldl_cons, one, ih]
  exact all _

theorem raise_out_congr {s t : State} (b : EventBit)
    (events : t.events = s.events) (msi : t.msiInput = s.msiInput) (out : t.out = s.out) :
    (raise b t).out = (raise b s).out := by
  unfold raise
  rw [events]
  split
  · exact out
  · dsimp only
    split
    · unfold announce
      dsimp only
      split
      · simp only [startHoldoff, sendMessage, msi]
        split
        · simp [emit, out]
        · exact out
      · exact out
    · exact out

theorem finishAppend_out_congr {s t : State} (order : Nat) (r : OrderResult) (notify : Bool) (h : Calm s)
    (control : t.control = s.control) (events : t.events = s.events) (msi : t.msiInput = s.msiInput)
    (out : t.out = s.out) (tail : t.finishedTail = s.finishedTail) :
    (finishAppend order r notify t).out = (finishAppend order r notify s).out := by
  have calm := h.of_control control
  have writes : finishWrites t order r = finishWrites s order r := by
    simp only [finishWrites, finishedLinkWrite, tail, control]
  have issues : (issue (finishWrites s order r) t).out = (issue (finishWrites s order r) s).out := by
    simp only [issue, out]
  rw [finishAppend_permitted order r notify h.2 (h.permits _), finishAppend_permitted order r notify calm.2 (calm.permits _),
    writes]
  dsimp only
  split
  · exact raise_out_congr .orderFinished events msi issues
  · exact issues

theorem issued_byte (addr value : Nat) (ws : List PlannedWrite) (n : Nat) :
    issued (fieldWrite addr 1 value :: ws) n = byteWrite addr value :: issued ws (n + 1) := by
  simp only [issued, fieldWrite, writeRequests_byte]
  rfl

/-- The two bytes that a finish append writes first (R49). -/
theorem finishAppend_first {s : State} (order : Nat) (r : OrderResult) (notify : Bool) (h : Calm s) :
    s.out ++ [byteWrite (order + 0x089) r.outcome.code, byteWrite (order + 0x08A) r.detail.code] <+:
      (finishAppend order r notify s).out := by
  refine List.IsPrefix.trans ?_ (finishAppend_out order r notify h)
  rw [List.prefix_append_right_inj]
  rw [finishWrites, List.append_assoc, List.cons_append, issued_byte, List.cons_append, issued_byte]
  exact ⟨_, rfl⟩

section
variable {s : State} {a : Nat} {p : Profile} {c : CtxId}

/-- The result of an order lost at its take (R44). -/
def lossResult (n : Nat) : OrderResult :=
  { outcome := .unrecoverable, detail := .loss, front := 0, basesSolved := 0, demotions := 0, notesAccepted := 0
    slots := List.replicate n [0xFF#8, 0#8, 0#8, 0#8, 0#8, 0#8, 0#8, 0#8] }

theorem lossAtTake_result (s : State) (a : Nat) {o : RepairOrder} (p : Profile) (nonempty : o.length ≠ 0) :
    (lostAtTake (newContext s a o p)).result = lossResult o.lost.length := by
  have windows : windowCount o.length p.windowBytes ≠ 0 := by
    have size : 0 < p.windowBytes := by rw [Profile.windowBytes, windowSize]; positivity
    rw [windowCount, Nat.div_ne_zero_iff]
    exact ⟨size.ne', by omega⟩
  have outcome : fragmentOutcome 0 (windowCount o.length p.windowBytes) = 0 := by
    simp [fragmentOutcome, windows.symm]
  have slot (e : LostSlot) : resultSlot (newLost e).lane (fragmentOutcome 0 (windowCount o.length p.windowBytes))
      ((newLost e).resolvedKey.getD 0) (newLost e).recordsUsed = [0xFF#8, 0#8, 0#8, 0#8, 0#8, 0#8, 0#8, 0#8] := by
    rw [outcome]
    exact resultSlot_none
  simp only [Context.result, lostAtTake, newContext, lossResult, OrderResult.mk.injEq, true_and]
  exact List.eq_replicate_iff.2 ⟨by simp, by simp [slot]⟩

theorem length_of_validateOrder {o : RepairOrder} (h : validateOrder s o = .ok p) : o.length ≠ 0 := by
  unfold validateOrder at h
  split at h
  · exact absurd h nofun
  · split at h
    · exact absurd h nofun
    · rename_i bound
      exact fun zero => bound (.inl zero)

/-- An order with fewer candidates than its profile needs is finished at its take (R44). -/
theorem afterTake_loss {o : RepairOrder} (h : takes s .order a) (off : s.unfenced) (short : o.cands.length < p.k)
    (free : inFlight s c = false) (nonempty : o.length ≠ 0) :
    ∃ u, inOrder [lossAtTake c, applyPenNotes c o.tag, settleIfLanded c, settleAtDeadline c, finishIfDue c]
        (orderTaken s a c (newContext s a o p)) = u ∧ u.halted = false ∧ u.contexts[c] = none ∧
      u.pen = (s.pen.filter fun e => e.note.tag != o.tag) ∧ u.finishedTail = some a ∧
      ((s.pen.filter fun e => e.note.tag == o.tag) = [] →
        u.out = (finishAppend a (lossResult o.lost.length) o.notify (orderTaken s a c (newContext s a o p))).out) ∧
      ∃ os, u.out = s.out ++ os ∧
        byteWrite (a + 0x088) 1 :: (s.pen.filter fun e => e.note.tag == o.tag).map (fun e => byteWrite (e.addr + 0x28) 0x14) ++
          [byteWrite (a + 0x089) 2, byteWrite (a + 0x08A) 1] <+: os.filter Output.isWrite := by
  obtain ⟨T, eT⟩ : ∃ T, orderTaken s a c (newContext s a o p) = T := ⟨_, rfl⟩
  have calm : Calm T := eT ▸ orderTaken_calm h off
  have used : T.contexts[c] = some (newContext s a o p) := eT ▸ orderTaken_used
  have pen : T.pen = s.pen := eT ▸ orderTaken_pen
  have out : T.out = s.out ++ [byteWrite (a + 0x088) 1] := by rw [← eT]; rfl
  have flight : inFlight T c = false := by
    rw [← eT, ← free]
    exact inFlight_congr (recordTaken_work s).solve_eq (recordTaken_work s).combine_eq c
  obtain ⟨D, eD⟩ : ∃ D, lossAtTake c T = D := ⟨_, rfl⟩
  have entered : D = enterDraining c .unrecoverable .loss T := by
    rw [← eD]
    exact lossAtTake_short used (by rw [newContext_roster]; exact short)
  have work := enterDraining_work c .unrecoverable .loss T
  have fresh : (newContext s a o p).state ≠ .draining := nofun
  have lost : D.contexts[c] = some (lostAtTake (newContext s a o p)) := by
    rw [entered, enterDraining_some .unrecoverable .loss used fresh]
    exact Vector.getElem_set_self _
  have closed := enterDraining_live (s := T) c .unrecoverable .loss _ used fresh
  rw [← entered] at work closed
  have calmD := calm.of_control work.control_eq
  obtain ⟨notes, control⟩ := applyPenNotes_calm c o.tag calmD
  obtain ⟨ev, os, run, late⟩ := applyNotes_draining (D.pen.filter fun e => e.note.tag == o.tag)
    (s := { D with pen := D.pen.filter fun e => e.note.tag != o.tag }) calmD lost rfl
  rw [work.pen_eq, pen] at notes run late
  rw [eT, (afterTake_calm o.tag calm).1, eD]
  obtain ⟨P, eP⟩ : ∃ P, applyPenNotes c o.tag D = P := ⟨_, rfl⟩
  rw [eP] at control notes ⊢
  rw [run] at notes
  have calmP := calmD.of_control control
  have usedP : P.contexts[c] = some (lostAtTake (newContext s a o p)) := by rw [notes]; exact lost
  have flightP : inFlight P c = false := by
    rw [notes, ← flight]
    exact inFlight_congr work.solve_eq work.combine_eq c
  have unsettled : settleAtDeadline c (settleIfLanded c P) = P := by
    rw [settleIfLanded_of_not usedP (fun settling => absurd settling.1 nofun), settleAtDeadline_of_none usedP rfl]
  rw [unsettled, finishIfDue_due usedP rfl flightP]
  obtain ⟨freed, tail⟩ := finishContext_ends calmP usedP
  have leaves := (finishContext_leaves calmP usedP).2.1
  have noneOpen : closeAll c (lostAtTake (newContext s a o p)) P = P := closeAll_noneOpen usedP fun e mem => by
    obtain ⟨l, -, rfl⟩ := List.mem_map.1 mem
    rfl
  rw [noneOpen, lossAtTake_result s a p nonempty] at leaves
  refine ⟨_, rfl, (calmP.of_control (finishContext_control c calmP)).2, freed, ?_, tail, fun none => ?_, ?_⟩
  · rw [(finishContext_work c P).pen_eq, notes]
  · have still : P = D := by
      rw [← eP]
      exact applyPenNotes_none c (by rw [work.pen_eq, pen]; exact none)
    rw [leaves, still]
    exact finishAppend_out_congr a _ o.notify calm work.control_eq (by rw [closed]) (by rw [closed])
      (by rw [closed]) (by rw [closed])
  · obtain ⟨os', appended⟩ := finishAppend_first a (lossResult o.lost.length) o.notify calmP
    have before : P.out = s.out ++ (byteWrite (a + 0x088) 1 :: os) := by
      rw [notes]
      simp only [closed, out, List.append_assoc, List.cons_append, List.nil_append]
    refine ⟨byteWrite (a + 0x088) 1 :: os ++ ([byteWrite (a + 0x089) 2, byteWrite (a + 0x08A) 1] ++ os'), ?_, ?_⟩
    · rw [leaves]
      refine appended.symm.trans ?_
      rw [before, List.append_assoc, List.append_assoc]
      rfl
    · rw [List.filter_append, List.filter_append, List.filter_cons_of_pos rfl, late, ← List.append_assoc]
      exact List.prefix_append _ _

/-- The settle's end after the notes of the tag (R43, R82). -/
theorem afterTake_settles {o : RepairOrder} (h : takes s .order a) (off : s.unfenced) (enough : p.k ≤ o.cands.length)
    (kinds : ∀ e ∈ s.pen.filter fun e => e.note.tag == o.tag, e.note.kind = .data) :
    let mine := s.pen.filter fun e => e.note.tag == o.tag
    let y := mine.foldl applied (newContext s a o p)
    ∃ u, inOrder [lossAtTake c, applyPenNotes c o.tag, settleIfLanded c, settleAtDeadline c, finishIfDue c]
        (orderTaken s a c (newContext s a o p)) = u ∧ u.halted = false ∧
      u.pen = (s.pen.filter fun e => e.note.tag != o.tag) ∧
      (∃ os, u.out = s.out ++ os ∧ os.filter Output.isWrite = byteWrite (a + 0x088) 1 :: mine.mapIdx fun i e =>
        byteWrite (e.addr + 0x28) (appliedOutcome ((mine.take i).foldl applied (newContext s a o p)) e).code) ∧
      (y.settleLanded = false → s.control.timers.settle ≠ 0 → u.contexts[c] = some y) ∧
      (y.settleLanded = true ∨ s.control.timers.settle = 0 →
        (c ∈ u.solveQueue ∨ u.solve.map Solve.ctx = some c) ∧ u.contexts[c] = some y.endSettle) := by
  intro mine y
  obtain ⟨T, eT⟩ : ∃ T, orderTaken s a c (newContext s a o p) = T := ⟨_, rfl⟩
  have calm : Calm T := eT ▸ orderTaken_calm h off
  have used : T.contexts[c] = some (newContext s a o p) := eT ▸ orderTaken_used
  have pen : T.pen = s.pen := eT ▸ orderTaken_pen
  have now : T.now = s.now := eT ▸ orderTaken_now
  have out : T.out = s.out ++ [byteWrite (a + 0x088) 1] := by rw [← eT]; rfl
  obtain ⟨notes, control⟩ := applyPenNotes_calm c o.tag calm
  obtain ⟨ev, os, run, writes⟩ := applyNotes_settling (T.pen.filter fun e => e.note.tag == o.tag)
    (s := { T with pen := T.pen.filter fun e => e.note.tag != o.tag }) calm used rfl (by rw [pen]; exact kinds)
  rw [pen] at notes run writes
  rw [eT, (afterTake_calm o.tag calm).1, lossAtTake_enough used (by rw [newContext_roster]; exact enough)]
  obtain ⟨P, eP⟩ : ∃ P, applyPenNotes c o.tag T = P := ⟨_, rfl⟩
  rw [eP] at control notes ⊢
  rw [run] at notes
  have calmP := calm.of_control control
  have usedP : P.contexts[c] = some y := by rw [notes]; exact Vector.getElem_set_self _
  obtain ⟨_, _, _, keeps⟩ := applied_keeps mine (newContext s a o p)
  have settling : y.state = .settling := congrArg Context.state keeps
  have deadline : y.settleDeadline = some (s.now + s.control.timers.settle) := congrArg Context.settleDeadline keeps
  have nowP : P.now = s.now := by rw [notes]; exact now
  have penP : P.pen = s.pen.filter fun e => e.note.tag != o.tag := by rw [notes]
  have outP : P.out = s.out ++ (byteWrite (a + 0x088) 1 :: os) := by
    rw [notes]
    simp only [out, List.append_assoc, List.cons_append, List.nil_append]
  have written : (byteWrite (a + 0x088) 1 :: os).filter Output.isWrite = byteWrite (a + 0x088) 1 :: mine.mapIdx fun i e =>
      byteWrite (e.addr + 0x28) (appliedOutcome ((mine.take i).foldl applied (newContext s a o p)) e).code := by
    rw [List.filter_cons_of_pos rfl, writes]
  obtain ⟨waits, ends⟩ := settle_ends usedP settling deadline
  have early : ¬s.now + s.control.timers.settle ≤ P.now ↔ s.control.timers.settle ≠ 0 := by omega
  by_cases due : y.settleLanded = true ∨ s.now + s.control.timers.settle ≤ P.now
  · obtain ⟨ended, contexts⟩ := ends due
    have work := endSettle_work c P
    obtain ⟨os', later, quiet⟩ := work.issues
    rw [ended]
    refine ⟨_, rfl, (calmP.of_control work.control_eq).2, work.pen_eq.trans penP, ⟨byteWrite (a + 0x088) 1 :: os ++ os', ?_, ?_⟩,
      fun unlanded settles => absurd due ?_, fun _ => ⟨?_, ?_⟩⟩
    · rw [later, outP, List.append_assoc]
    · rw [List.filter_append, written]
      have silent : os'.filter Output.isWrite = [] := List.filter_eq_nil_iff.2 fun o mem => by
        simp [(quiet o mem).2.1 (by decide)]
      rw [silent, List.append_nil]
    · simp [unlanded, early.2 settles]
    · exact enterQueue_waits c
    · rw [contexts]
      exact Vector.getElem_set_self _
  · obtain ⟨unlanded, late⟩ := not_or.1 due
    rw [waits (Bool.eq_false_iff.2 unlanded) late]
    exact ⟨P, rfl, calmP.2, penP, ⟨_, outP, written⟩, fun _ _ => usedP, fun ends =>
      absurd ends (not_or.2 ⟨unlanded, early.1 late⟩)⟩

end

/-- A first basis chosen (R82, R93). -/
theorem endSettle_first {x : Context} {p : Profile} (profile : x.profile = p) (front : x.front = 0)
    (changes : x.changeCount = 0) :
    let chosen := ((ranked 0 (x.roster.filter fun k => k.state = .awaited ∨ k.state = .landing)).take p.k).map Candidate.frag
    x.endSettle = { x with
      state := .solving, settleDeadline := none, attempts := 0, changeCount := 1
      basis := chosen.insertionSort (· ≤ ·)
      roster := x.roster.map fun k =>
        { k with tried := decide (k.frag ∈ chosen), role := if k.frag ∈ chosen then .basis else .spare } } := by
  rw [endSettle_eq]
  cases x
  dsimp only at profile front changes
  subst profile front changes
  rfl

theorem walkOn_after {w : WalkerId} {u : State} (record : Nat) (link : Link) :
    (walkOn w record link u).contexts = u.contexts ∧ (walkOn w record link u).pen = u.pen ∧
      (walkOn w record link u).finishedTail = u.finishedTail ∧ (walkOn w record link u).solveQueue = u.solveQueue ∧
      (walkOn w record link u).solve = u.solve ∧
      ∃ os, (walkOn w record link u).out = u.out ++ os ∧ os.filter Output.isWrite = [] := by
  have work := walkOn_work w record link u
  obtain ⟨os, out, good⟩ := work.issues
  exact ⟨work.contexts_eq, work.pen_eq, work.finishedTail_eq, work.solver_eq.2, work.solver_eq.1, os, out,
    List.filter_eq_nil_iff.2 fun o mem => by simp [(good o mem).2.1 (by decide)]⟩

/-- Settles O26: the take fills the context and writes TAKEN; the loss, the pen notes of the tag and the settle end follow, and
then the walker goes on. -/
theorem acceptedOrderFillsAContext : Obligations.AcceptedOrderFillsAContext := by
  unfold Obligations.AcceptedOrderFillsAContext
  intro s a image p c h size good inside o valid free below fresh taken mine others
  have filled : fresh = newContext s a o p := by
    have urgency : min o.hint (min (o.cands.length - p.k) 3) = urgencyOf o.hint ((o.cands.length : Int) - p.k) := by
      rw [urgencyOf]
      omega
    dsimp only [fresh]
    rw [urgency]
    rfl
  have written : taken = orderTaken s a c (newContext s a o p) := by
    rw [← filled]
    rfl
  clear_value taken fresh
  subst written filled
  have take {u : State} (rest : inOrder [lossAtTake c, applyPenNotes c o.tag, settleIfLanded c, settleAtDeadline c,
      finishIfDue c] (orderTaken s a c (newContext s a o p)) = u) (live : u.halted = false) :
      exec (.orderTake (.data image)) s = .next (walkOn .order a (imageLink image) u) :=
    exec_orderTake_accepted h size good inside valid free below rest live
  refine ⟨fun positive enough none settles => ?_, fun off enough => ?_, fun off short flight => ?_,
    fun off enough kinds _ _ => ?_⟩
  · exact take (afterTake_waits h positive enough none settles) (orderTaken_live _ h)
  · have calm : Calm (orderTaken s a c (newContext s a o p)) := orderTaken_calm h off
    obtain ⟨run, control⟩ := afterTake_calm (c := c) o.tag calm
    rw [take rfl (calm.of_control control).2, run,
      lossAtTake_enough orderTaken_used (by rw [newContext_roster]; exact enough), (applyPenNotes_calm c o.tag calm).1,
      orderTaken_pen]
  · obtain ⟨u, rest, live, freed, pen, tail, append, os, out, writes⟩ :=
      afterTake_loss h off short flight (length_of_validateOrder valid)
    obtain ⟨contexts, pen', tail', -, -, os', out', silent⟩ := walkOn_after (w := .order) (u := u) a (imageLink image)
    refine ⟨_, take rest live, (congrArg (·[c]) contexts).trans freed, pen'.trans pen, tail'.trans tail, fun none => ?_, ?_⟩
    · exact ⟨os', by rw [out', append none]; rfl⟩
    · rw [newWrites_of_append (os := os ++ os') (by rw [out', out, List.append_assoc]), List.filter_append, silent,
        List.append_nil]
      exact writes
  · obtain ⟨u, rest, live, pen, ⟨os, out, writes⟩, waits, ends⟩ := afterTake_settles (c := c) (p := p) h off enough kinds
    obtain ⟨contexts, pen', -, queue, solve, os', out', silent⟩ := walkOn_after (w := .order) (u := u) a (imageLink image)
    obtain ⟨_, _, _, keeps⟩ := applied_keeps mine (newContext s a o p)
    have profile : (mine.foldl applied (newContext s a o p)).profile = p := congrArg Context.profile keeps
    have changes : (mine.foldl applied (newContext s a o p)).changeCount = 0 := congrArg Context.changeCount keeps
    have front : (mine.foldl applied (newContext s a o p)).front = 0 := congrArg Context.front keeps
    have landed := settleLanded_iff (mine.foldl applied (newContext s a o p))
    rw [profile] at landed
    refine ⟨_, take rest live, pen'.trans pen, ?_, fun few settles => ?_, fun due => ?_⟩
    · rw [newWrites_of_append (os := os ++ os') (by rw [out', out, List.append_assoc]), List.filter_append, silent,
        List.append_nil]
      exact writes
    · refine (congrArg (·[c]) contexts).trans (waits (Bool.eq_false_iff.2 fun full => ?_) settles)
      exact absurd (landed.1 full) (Nat.not_le.2 few)
    · obtain ⟨waiting, ended⟩ := ends (due.imp landed.2 id)
      rw [queue, solve]
      refine ⟨waiting, (congrArg (·[c]) contexts).trans (ended.trans ?_)⟩
      exact congrArg some (endSettle_first profile front changes)

end Sys2Proof.Proofs

/-! PROOFS. An anchor image as read, and a START that succeeds (R22, R126, R157, R168). -/

namespace Sys2Proof.Proofs

open Sys2Proof Sys2Proof.Machine

/-! ## Parts of parts of an image (R168) -/

theorem slice_slice (image : List Byte) (at₀ len off width : Nat) :
    slice (slice image at₀ len) off width = slice image (at₀ + off) (min width (len - off)) := by
  simp only [slice]
  rw [List.drop_take, List.drop_drop, List.take_take]

theorem slice_slice_within (image : List Byte) {at₀ len off width : Nat} (inside : off + width ≤ len) :
    slice (slice image at₀ len) off width = slice image (at₀ + off) width := by
  rw [slice_slice, Nat.min_eq_left (by omega)]

theorem field_slice (image : List Byte) {at₀ len off width : Nat} (inside : off + width ≤ len) :
    field (slice image at₀ len) off width = field image (at₀ + off) width := by
  rw [field, slice_slice_within image inside, field]

theorem flag_slice (image : List Byte) {at₀ len off : Nat} (inside : off + 1 ≤ len) :
    flag (slice image at₀ len) off = decide (field image (at₀ + off) 1 ≠ 0) := by
  rw [flag_eq, field_slice image inside]

theorem clamp_eq (lo hi v : Nat) (ordered : lo ≤ hi) : clamp lo hi v = if v < lo then lo else if hi < v then hi else v := by
  unfold clamp
  split
  · omega
  · split <;> omega

theorem intervalKindOfCode_eq (code : Nat) :
    intervalKindOfCode code = if code = 0 then .normal else if code = 1 then .spread else .forbidden := by
  unfold intervalKindOfCode
  split <;> simp_all

section
variable (image : List Byte)

theorem readTimers_eq : readTimers image =
    let within : Nat → Nat → Nat → Nat := fun lo hi v => if v < lo then lo else if hi < v then hi else v
    { settle := within 0 1000000 (field image 0x008 4)
      straggler := within 100 10000000 (field image 0x00C 4)
      revisit := within 1 1000 (field image 0x010 4)
      dozeRevisit := within 1000 1000000 (field image 0x014 4)
      idle := if field image 0x018 4 = 0 then 0 else within 10000 100000000 (field image 0x018 4)
      holdoff := within 0 10000 (field image 0x01C 4)
      orphan := within 1000 10000000 (field image 0x020 4)
      quota := within 1 128 (field image 0x024 4) } := by
  have bounds : (0 ≤ 1000000 ∧ 100 ≤ 10000000 ∧ 1 ≤ 1000 ∧ 1000 ≤ 1000000) ∧
      10000 ≤ 100000000 ∧ 0 ≤ 10000 ∧ 1000 ≤ 10000000 ∧ 1 ≤ 128 := by decide
  obtain ⟨⟨settle, straggler, revisit, doze⟩, idle, holdoff, orphan, quota⟩ := bounds
  rw [readTimers, clamp_eq _ _ _ settle, clamp_eq _ _ _ straggler, clamp_eq _ _ _ revisit, clamp_eq _ _ _ doze,
    clamp_eq _ _ _ idle, clamp_eq _ _ _ holdoff, clamp_eq _ _ _ orphan, clamp_eq _ _ _ quota]

theorem readAnchor_fence (i : Fin 4) : (readAnchor image).fences[i] =
    { base := BitVec.ofNat 64 (field image (0x080 + 32 * i.val) 8 / 4096 * 4096)
      limit := BitVec.ofNat 64 (field image (0x088 + 32 * i.val) 8 / 4096 * 4096)
      enabled := decide (field image (0x090 + 32 * i.val) 1 ≠ 0) } := by
  have entry : (readAnchor image).fences[i] = readFence (slice (slice image 0x080 (4 * 32)) (32 * i.val) 32) :=
    tabulate_getElem _ _ _
  rw [entry, slice_slice_within image (by omega), readFence, field_slice image (by omega), field_slice image (by omega),
    flag_slice image (by omega), Nat.add_right_comm 0x080 (32 * i.val) 0x08, Nat.add_right_comm 0x080 (32 * i.val) 0x10,
    Nat.add_zero]

theorem readAnchor_lane (p : LaneId) : (readAnchor image).blankStarts[p] = field image (0x100 + 32 * p.val) 8 ∧
    (readAnchor image).notify[p] = decide (field image (0x110 + 32 * p.val) 1 ≠ 0) ∧
    (readAnchor image).steering.groupEnd[p] = decide (field image (0x111 + 32 * p.val) 1 ≠ 0) := by
  have start : (readAnchor image).blankStarts[p] = field (slice image 0x100 (32 * 32)) (32 * p.val) 8 := tabulate_getElem _ _ _
  have notify : (readAnchor image).notify[p] = flag (slice image 0x100 (32 * 32)) (32 * p.val + 0x10) := tabulate_getElem _ _ _
  have groupEnd : (readAnchor image).steering.groupEnd[p] = flag (slice image 0x100 (32 * 32)) (32 * p.val + 0x11) :=
    tabulate_getElem _ _ _
  refine ⟨?_, ?_, ?_⟩
  · rw [start, field_slice image (by omega)]
  · rw [notify, flag_slice image (by omega), ← Nat.add_assoc, Nat.add_right_comm]
  · rw [groupEnd, flag_slice image (by omega), ← Nat.add_assoc, Nat.add_right_comm]

theorem readAnchor_sep (i : Fin 31) : (readAnchor image).steering.seps[i] = field image (0x500 + 2 * i.val) 2 := by
  have sep : (readAnchor image).steering.seps[i] = field (slice image 0x500 768) (2 * i.val) 2 := tabulate_getElem _ _ _
  rw [sep, field_slice image (by omega)]

theorem readAnchor_interval (i : Fin 32) : (readAnchor image).steering.intervals[i] =
    { kind := if field image (0x540 + 2 * i.val) 1 = 0 then .normal
        else if field image (0x540 + 2 * i.val) 1 = 1 then .spread else .forbidden
      lane := laneOfNat (field image (0x541 + 2 * i.val) 1) } := by
  have interval : (readAnchor image).steering.intervals[i] =
      { kind := intervalKindOfCode (field (slice image 0x500 768) (0x40 + 2 * i.val) 1)
        lane := laneOfNat (field (slice image 0x500 768) (0x41 + 2 * i.val) 1) } := tabulate_getElem _ _ _
  rw [interval, field_slice image (by omega), field_slice image (by omega), intervalKindOfCode_eq, ← Nat.add_assoc,
    ← Nat.add_assoc]

theorem readAnchor_spread : (readAnchor image).steering.spreadBase = field image 0x580 2 ∧
    (readAnchor image).steering.spreadRange = (if 65536 < field image 0x580 2 + field image 0x584 4
      then 65536 - field image 0x580 2 else field image 0x584 4) ∧
    (readAnchor image).steering.seed = field image 0x588 2 := by
  have base : field (slice image 0x500 768) 0x80 2 = field image 0x580 2 := field_slice image (by decide)
  have range : field (slice image 0x500 768) 0x84 4 = field image 0x584 4 := field_slice image (by decide)
  refine ⟨base, ?_, field_slice image (by decide)⟩
  have bound : field image 0x580 2 < 65536 := field_lt image 0x580 2
  change clampSpread (field (slice image 0x500 768) 0x80 2) (field (slice image 0x500 768) 0x84 4) = _
  rw [base, range, clampSpread]
  split <;> omega

theorem readAnchor_profile (j : Fin 16) :
    let entry := 0x800 + 128 * j.val
    (readAnchor image).profiles[j] =
      { valid := decide (field image entry 1 ≠ 0), k := field image (entry + 1) 1, m := field image (entry + 2) 1
        sizeCode := field image (entry + 3) 1, mask := BitVec.ofNat 4 (field image (entry + 4) 1)
        coeffs := (image.drop (entry + 0x10)).take (min 112 (field image (entry + 1) 1 * field image (entry + 2) 1)) } := by
  intro entry
  have here : (readAnchor image).profiles[j] = readProfile (slice (slice image 0x800 (16 * 128)) (128 * j.val) 128) :=
    tabulate_getElem _ _ _
  rw [here, slice_slice_within image (by omega), readProfile]
  simp only [flag_slice image (show 0 + 1 ≤ 128 by decide), field_slice image (show 1 + 1 ≤ 128 by decide),
    field_slice image (show 2 + 1 ≤ 128 by decide), field_slice image (show 3 + 1 ≤ 128 by decide),
    field_slice image (show 4 + 1 ≤ 128 by decide), slice_slice]
  rw [Nat.mul_comm (field image (entry + 2) 1), Nat.min_comm]
  rfl

end

/-! ## The walkers at their chain starts (R22) -/

/-- The chain start of a walker in an image. -/
def startWord (img : AnchorImage) : WalkerId → Nat
  | .order => img.orderStart
  | .note => img.noteStart
  | .blank p => img.blankStarts[p]

/-- A walker at a well-formed chain start. -/
def startedWalker (img : AnchorImage) (s : State) (w : WalkerId) : Walker :=
  if startWord img w % 2 = 1 then heldAt .startField s else nextAt .startField (startWord img w)

theorem startWalkers_eq (img : AnchorImage) (s : State) :
    startWalkers img s = inOrder (allWalkers.map fun w => startWalker w (startWord img w)) s := by
  simp only [startWalkers, allWalkers, List.map_append, List.map_cons, List.map_nil, List.map_map]
  rfl

theorem readLink_eq {word : Nat} (good : readLink word ≠ .malformed) :
    readLink word = if word % 2 = 1 then .hold else .next word := by
  unfold readLink at good ⊢
  split
  · rfl
  · next even =>
    rw [if_neg even] at good
    split
    · next bad => rw [if_pos bad] at good; exact absurd rfl good
    · rfl

theorem startWalker_good (img : AnchorImage) (w : WalkerId) (s : State) (good : readLink (startWord img w) ≠ .malformed) :
    startWalker w (startWord img w) s = setWalker w (startedWalker img s w) s := by
  rw [startWalker, readLink_eq good, startedWalker]
  by_cases hold : startWord img w % 2 = 1
  · rw [if_pos hold, if_pos hold]
  · rw [if_neg hold, if_neg hold]

/-- Steps that leave the control unit alone run one after another. -/
theorem inOrder_foldl {fs : List (State → State)} {s : State} (live : s.halted = false)
    (each : ∀ f ∈ fs, ∀ t, (f t).control = t.control) : inOrder fs s = fs.foldl (fun t f => f t) s := by
  induction fs generalizing s with
  | nil => rfl
  | cons f fs ih =>
    have same := each f List.mem_cons_self s
    rw [inOrder_step _ _ _ live, List.foldl_cons]
    exact ih (by rw [State.halted, same]; exact live) fun g mem => each g (List.mem_cons_of_mem _ mem)

theorem startWalkers_good (img : AnchorImage) {s : State} (live : s.halted = false)
    (good : ∀ w, readLink (startWord img w) ≠ .malformed) :
    startWalkers img s = moveWalkers (startedWalker img s) [] s := by
  rw [startWalkers_eq, inOrder_foldl live, List.foldl_map]
  · have moved := foldl_allWalkers (f := fun w => startWalker w (startWord img w)) (y := startedWalker img s)
      (os := fun _ => []) (s := s) fun w x o _ => by rw [startWalker_good img w _ (good w), emit_nil]; rfl
    have none : allWalkers.flatMap (fun _ => ([] : List Output)) = [] := List.flatMap_eq_nil_iff.2 fun _ _ => rfl
    exact moved.trans (by rw [none])
  · intro f mem t
    obtain ⟨w, -, rfl⟩ := List.mem_map.1 mem
    rw [startWalker_good img w t (good w), setWalker_control]

/-- A malformed chain start halts the engine, whichever walker it belongs to. -/
theorem startWalkers_malformed (img : AnchorImage) {s : State} (live : s.halted = false)
    (bad : ∃ w, readLink (startWord img w) = .malformed) :
    (startWalkers img s).control.engine = .halted ∧ (startWalkers img s).control.cause = .chainMalformed := by
  have among (ws : List WalkerId) : ∀ t : State, t.halted = false → (∃ w ∈ ws, readLink (startWord img w) = .malformed) →
      (inOrder (ws.map fun w => startWalker w (startWord img w)) t).control.engine = .halted ∧
        (inOrder (ws.map fun w => startWalker w (startWord img w)) t).control.cause = .chainMalformed := by
    induction ws with
    | nil => exact fun _ _ ⟨_, mem, _⟩ => absurd mem List.not_mem_nil
    | cons w ws ih =>
      intro t going ⟨v, mem, malformed⟩
      rw [List.map_cons, inOrder_step _ _ _ going]
      by_cases here : readLink (startWord img w) = .malformed
      · have halts : startWalker w (startWord img w) t = halt .chainMalformed t := by rw [startWalker, here]
        rw [halts]
        rcases halt_cases .chainMalformed t with ⟨halted, _⟩ | ⟨_, ev, os, _, e⟩
        · exact absurd (halted.symm.trans going) (by decide)
        · rw [e, inOrder_halted _ _ rfl]
          exact ⟨rfl, rfl⟩
      · rw [startWalker_good img w t here]
        refine ih _ (by rw [State.halted, setWalker_control]; exact going) ⟨v, ?_, malformed⟩
        exact (List.mem_cons.1 mem).resolve_left fun same => here (same ▸ malformed)
  rw [startWalkers_eq]
  obtain ⟨w, malformed⟩ := bad
  exact among allWalkers s live ⟨w, mem_allWalkers w, malformed⟩

/-! ## START (R157) -/

theorem exec_startSuccess {s : State} {image : List Byte} (starting : s.control.engine = .starting) (size : image.length = 4096)
    (passes : imageFault s (readAnchor image) = none) :
    exec (.startReadCompletion (.data image)) s = .next (succeedStart (readAnchor image) s) := by
  rw [exec_startReadCompletion _ starting (by simp [ReadResult.sized, size]), finishStart, passes]

theorem startLoaded_lane (img : AnchorImage) (s : State) (p : LaneId) : (startLoaded img s).lanes[p] =
    { stock := s.lanes[p].stock, filledTail := none, notify := img.notify[p] } := by
  have lanes : (startLoaded img s).lanes = (tabulate fun p : LaneId => { s.lanes[p] with notify := img.notify[p] }).map
      fun l => { l with filledTail := none } := rfl
  rw [lanes]
  simp

theorem startLoaded_hasLeave (img : AnchorImage) (s : State) (w : WalkerId) :
    hasLeave (startLoaded img s) w = hasLeave s w := by
  rw [hasLeave_eq, hasLeave_eq]
  cases w with
  | order => rfl
  | note => rfl
  | blank p => dsimp only; rw [startLoaded_lane]

theorem startIdle_walker (s : State) (w : WalkerId) : (startIdle s).walker w = s.walker w := by cases w <;> rfl

/-- The machine after a START that succeeds. -/
theorem succeedStart_good (img : AnchorImage) (s : State) (good : ∀ w, readLink (startWord img w) ≠ .malformed) :
    let u := startIdle (moveWalkers (startedWalker img (startLoaded img s)) [] (startLoaded img s))
    succeedStart img s = moveWalkers (afterLeave u) (allWalkers.flatMap (leaveReads u)) u := by
  intro u
  rw [succeedStart_eq, inOrder_step _ _ _ rfl, startWalkers_good img rfl good, inOrder_step _ _ _ rfl, inOrder_one _ rfl]
  exact giveLeave_eq u rfl

/-- Settles O11: the image field by field; a START's loads, the chain starts of its walkers and the leave they have. -/
theorem startSuccessLoadsTheImage : Obligations.StartSuccessLoadsTheImage := by
  unfold Obligations.StartSuccessLoadsTheImage
  refine ⟨fun image _ => ?_, fun s image starting size => ?_⟩
  · intro num set within img
    have number : num = field image := by
      funext off width
      exact (field_eq_sum image off width).symm
    have flags (off : Nat) : flag image off = set off := by rw [flag_eq, ← number]
    refine ⟨?_, flags 0x004, flags 0x005, flags 0x006, ?_, ?_, ?_, fun i => ?_, fun p => ?_, fun i => ?_, fun i => ?_, ?_⟩
    · rw [number]
      rfl
    · rw [number]
      exact readTimers_eq image
    · rw [number]
      rfl
    · rw [number]
      rfl
    · simp only [set, number]
      exact readAnchor_fence image i
    · simp only [set, number]
      exact readAnchor_lane image p
    · rw [number]
      exact readAnchor_sep image i
    · have interval := readAnchor_interval image i
      rw [number]
      refine ⟨congrArg Machine.Interval.kind interval, congrArg (fun v : Machine.Interval => v.lane.val) interval⟩
    · obtain ⟨base, range, seed⟩ := readAnchor_spread image
      rw [number]
      refine ⟨base, range, seed, fun j => ?_⟩
      simp only [set, number]
      exact readAnchor_profile image j
  · intro img word leave len passes
    have words : word = startWord img := by
      funext w
      cases w <;> rfl
    have leaves (w : WalkerId) : hasLeave (startLoaded img s) w = leave w := by
      refine (startLoaded_hasLeave img s w).trans ((hasLeave_eq s w).trans ?_)
      cases w <;> rfl
    have lengths (w : WalkerId) : recordLength w = len w := by cases w <;> rfl
    rw [words]
    refine ⟨fun good => ⟨_, exec_startSuccess starting size passes, ?_⟩,
      fun bad => ⟨_, exec_startSuccess starting size passes, ?_⟩⟩
    · have run := succeedStart_good img s good
      obtain ⟨u, eu⟩ : ∃ u, startIdle (moveWalkers (startedWalker img (startLoaded img s)) [] (startLoaded img s)) = u :=
        ⟨_, rfl⟩
      have started (w : WalkerId) : u.walker w = startedWalker img (startLoaded img s) w := by
        rw [← eu]
        exact (startIdle_walker _ w).trans (moveWalkers_walker (startedWalker img (startLoaded img s)) [] (startLoaded img s) w)
      have has (w : WalkerId) : hasLeave u w = leave w := by
        rw [← leaves w, ← eu]
        have same (v : State) : hasLeave (startIdle v) w = hasLeave v w := by cases w <;> rfl
        exact (same _).trans (hasLeave_moveWalkers (startedWalker img (startLoaded img s)) [] (startLoaded img s) w)
      have gets (w : WalkerId) : getsLeave u w = decide (startWord img w % 2 = 0 ∧ leave w = true) := by
        rw [getsLeave, started, has, startedWalker]
        by_cases hold : startWord img w % 2 = 1
        · rw [if_pos hold]
          simp [heldAt, hold]
        · rw [if_neg hold]
          simp [nextAt, Nat.mod_two_ne_one.1 hold]
      dsimp only at run
      rw [eu] at run
      rw [run]
      refine ⟨?_, ?_, ?_, ?_, fun p => ?_, fun w => ?_, ?_, ?_⟩
      · rw [← eu]; rfl
      · rw [← eu]; rfl
      · rw [← eu]; rfl
      · rw [← eu]; rfl
      · rw [← eu]; exact startLoaded_lane img s p
      · rw [moveWalkers_walker, afterLeave, gets, started, startedWalker]
        have now : u.now = s.now := by rw [← eu]; rfl
        rw [now]
        by_cases hold : startWord img w % 2 = 1
        · rw [if_pos hold, if_pos hold, if_neg (by simp [hold])]
          rfl
        · have even : startWord img w % 2 = 0 := Nat.mod_two_ne_one.1 hold
          rw [if_neg hold, if_neg hold]
          by_cases left : leave w = true
          · rw [if_pos (by simp [even, left]), if_pos left, if_pos left]
            rfl
          · rw [if_neg (by simp [left]), if_neg left, if_neg left]
            rfl
      · have out : u.out = s.out := by rw [← eu]; exact List.append_nil _
        change u.out ++ _ = _
        rw [out]
        refine congrArg (s.out ++ ·) (List.flatMap_congr fun w _ => ?_)
        rw [leaveReads, gets, started, startedWalker, lengths]
        by_cases hold : startWord img w % 2 = 1
        · rw [if_pos hold, if_neg (by simp [hold]), if_neg (by simp [hold])]
        · rw [if_neg hold]
          simp only [decide_eq_true_eq]
          rfl
      · rw [← eu]; rfl
    · have ended := startWalkers_malformed img (s := startLoaded img s) rfl bad
      rw [succeedStart_eq, inOrder_step _ _ _ rfl, inOrder_halted _ _ ((halted_iff _).2 ended.1)]
      exact ended

end Sys2Proof.Proofs

/-! PROOFS. The handovers of a combine (R120, R144 to R146). -/

namespace Sys2Proof.Proofs

open Sys2Proof Sys2Proof.Machine

/-! ## One fragment's handover -/

/-- A context in use with this lost entry in place of its own. -/
def withEntry (s : State) (c : CtxId) (y : Context) (i : Nat) (g : LostEntry) : Vector (Option Context) 48 :=
  s.contexts.set c (some { y with lost := y.lost.set i g })

/-- An entry whose record is opened from a blank at a window. -/
def openedEntry (e : LostEntry) (k : StockEntry) (w : Nat) : LostEntry :=
  { e with openRecord := some { blank := k.blank, first := w, count := 0 }, recordsUsed := e.recordsUsed + 1, starved := false }

section
variable {s : State} {c : CtxId} {y : Context} {i : Nat} {e : LostEntry} {p : LaneId} {r : OpenRecord} {k : StockEntry}

theorem withEntry_same (s : State) (c : CtxId) (y : Context) (i : Nat) (g : LostEntry) :
    (withEntry s c y i g)[c] = some { y with lost := y.lost.set i g } := Vector.getElem_set_self _

theorem openClaimed_opened (used : s.contexts[c] = some y) (entry : y.lost[i]? = some e) (opened : e.openRecord = some r)
    (w : Nat) : openClaimed c i w s = s := by
  cases lane : e.lane <;> simp [openClaimed, used, entry, opened, lane]

theorem openClaimed_claimed (used : s.contexts[c] = some y) (entry : y.lost[i]? = some e) (lane : e.lane = some p)
    (unopened : e.openRecord = none) (found : (s.lanes[p].stock.find? fun k => k.claim == some e.frag) = some k) (w : Nat) :
    openClaimed c i w s = { s with
      lanes := s.lanes.set p { s.lanes[p] with stock := s.lanes[p].stock.erase k }
      contexts := withEntry s c y i (openedEntry e k w) } := by
  simp only [openClaimed, used, entry, lane, unopened, found]
  exact modifyLost_some (s := modifyStock p (fun stock => stock.erase k) s) _ used entry

theorem writeHost_calm (cause : Cause) (a : Nat) (bytes : List Byte) (h : Calm s) :
    writeHost cause a bytes s = emit (writeRequests a bytes) s :=
  if_pos (Tests.writePermitted_of_unfenced h.1 a bytes.length)

theorem fillRecord_open (h : Calm s) (used : s.contexts[c] = some y) (entry : y.lost[i]? = some e)
    (opened : e.openRecord = some r) (w S : Nat) (bytes check : List Byte) :
    fillRecord c i w S bytes check s = { s with
      out := s.out ++ (writeRequests (r.blank.buffer + (w - r.first) * S) bytes ++
        writeRequests (r.blank.checkArea + 4 * (w - r.first)) check)
      contexts := withEntry s c y i { e with openRecord := some { r with count := r.count + 1 } } } := by
  have data := writeHost_calm .fenceBlank (r.blank.buffer + (w - r.first) * S) bytes h
  have calm : Calm (emit (writeRequests (r.blank.buffer + (w - r.first) * S) bytes) s) := h
  rw [fillRecord_of_open used entry opened, inOrder_step _ _ _ h.2, data, inOrder_step _ _ _ calm.2,
    writeHost_calm .fenceBlank _ check calm, inOrder_one _ (by exact h.2)]
  refine (modifyLost_some (s := emit _ (emit _ s)) (x := y) (e := e) _ used entry).trans ?_
  simp only [emit, List.append_assoc, opened, Option.map_some]
  rfl

theorem closeIfDone_open (used : s.contexts[c] = some y) (entry : y.lost[i]? = some e) (opened : e.openRecord = some r)
    (last : Bool) : closeIfDone c i last s =
      if last = true then closeFragment c i .final s
      else if r.count = r.blank.capacity then closeFragment c i .filled s else s := by
  simp only [closeIfDone, openRecordOf, used, Option.bind_some, entry, opened]

/-- The state after a window is written into an open record. -/
def filledState (s : State) (c : CtxId) (y : Context) (i : Nat) (e : LostEntry) (r : OpenRecord) (w S : Nat)
    (bytes check : List Byte) : State :=
  { s with
    out := s.out ++ (writeRequests (r.blank.buffer + (w - r.first) * S) bytes ++
      writeRequests (r.blank.checkArea + 4 * (w - r.first)) check)
    contexts := withEntry s c y i { e with openRecord := some { r with count := r.count + 1 } } }

/-- What a record of an entry returns with. -/
def closingFields (y : Context) (e : LostEntry) (r : OpenRecord) (status : DeliveryStatus) : RecordFields :=
  { status := status, tag := y.tag, frag := e.frag, key := e.resolvedKey.getD 0, first := r.first, count := r.count + 1 }

/-- A handover into an open record. -/
theorem handOver_open (x : Context) (op : Combine) (output : List Byte) (h : Calm s) (used : s.contexts[c] = some y)
    (entry : y.lost[i]? = some e) (lane : e.lane = some p) (opened : e.openRecord = some r) :
    let filled := filledState s c y i e r op.window x.profile.windowBytes (output.take op.validLength) (windowCheck output)
    let closed : DeliveryStatus → State := fun status =>
      { returnRecord p r.blank.addr (closingFields y e r status) filled with
        contexts := withEntry s c y i { e with openRecord := none } }
    handOver c x op i output s =
      if op.window + 1 = x.windows then closed .final
      else if r.count + 1 = r.blank.capacity then closed .filled
      else filled := by
  intro filled closed
  have fill : fillRecord c i op.window x.profile.windowBytes (output.take op.validLength) (windowCheck output) s = filled :=
    fillRecord_open h used entry opened _ _ _ _
  have calm : Calm filled := h
  have usedF : filled.contexts[c] = some { y with
      lost := y.lost.set i { e with openRecord := some { r with count := r.count + 1 } } } := withEntry_same s c y i _
  have bound : i < y.lost.length := (List.getElem?_eq_some_iff.1 entry).1
  have entryF : (y.lost.set i { e with openRecord := some { r with count := r.count + 1 } })[i]? =
      some { e with openRecord := some { r with count := r.count + 1 } } := by simp [bound]
  have close (status : DeliveryStatus) : closeFragment c i status filled = closed status := by
    rw [closeFragment_open calm usedF entryF status lane rfl]
    simp only [closed, closingFields]
    congr 1
    simp only [filled, filledState, withEntry, List.set_set]
    exact Vector.set_set _ c.isLt
  rw [handOver, inOrder_step _ _ _ h.2, openClaimed_opened used entry opened, inOrder_step _ _ _ h.2, fill,
    inOrder_one _ calm.2, closeIfDone_open usedF entryF rfl, close, close]
  simp only [beq_iff_eq]

end

/-! ## What a handover leaves -/

/-- The blank claimed for a lost fragment on its lane. -/
def claimedFor (s : State) (e : LostEntry) : Option StockEntry :=
  e.lane.bind fun p => s.lanes[p].stock.find? fun k => k.claim == some e.frag

/-- The record that a fragment's window goes into: its open one, or one opened from its claimed blank. -/
def deliveryRecord (s : State) (w : Nat) (e : LostEntry) : Option OpenRecord :=
  e.openRecord.or ((claimedFor s e).map fun k => { blank := k.blank, first := w, count := 0 })

/-- The record left open after a window. -/
def leftOpen (last : Prop) [Decidable last] (r : OpenRecord) : Option OpenRecord :=
  if last then none else if r.count + 1 = r.blank.capacity then none else some { r with count := r.count + 1 }

/-- A lost entry after its handover. -/
def handedEntry (s : State) (op : Combine) (x : Context) (e : LostEntry) : LostEntry :=
  { e with
    openRecord := (deliveryRecord s op.window e).bind (leftOpen (op.window + 1 = x.windows))
    recordsUsed := e.recordsUsed + (if e.openRecord = none then 1 else 0)
    starved := if e.openRecord = none then false else e.starved }

/-- The writes of a window into a record: data, then check (R145). -/
def windowWrites (x : Context) (op : Combine) (output : List Byte) (r : OpenRecord) : List Output :=
  writeRequests (r.blank.buffer + (op.window - r.first) * x.profile.windowBytes) (output.take op.validLength) ++
    writeRequests (r.blank.checkArea + 4 * (op.window - r.first)) (windowCheck output)

/-- A record's closing writes lie among these outputs (R146). -/
def Closes (s : State) (x : Context) (os : List Output) (e : LostEntry) (r : OpenRecord) (status : DeliveryStatus) : Prop :=
  ∃ (u : State) (n : Nat) (p : LaneId), e.lane = some p ∧ u.control.anchor = s.control.anchor ∧
    issued (recordWrites u p r.blank.addr (closingFields x e r status)) n <:+: os

/-- The claims of the fragments other than this one find the same blanks. -/
def ClaimsFound (s t : State) (done : Nat → Prop) : Prop :=
  ∀ (q : LaneId) (f : Nat), ¬done f →
    (t.lanes[q].stock.find? fun k => k.claim == some f) = s.lanes[q].stock.find? fun k => k.claim == some f

/-- What one handover does: the entry, the writes of the window, and at the last window or a full record its closing. -/
structure HandedOver (s t : State) (c : CtxId) (y x : Context) (op : Combine) (i : Nat) (e : LostEntry) (r : OpenRecord)
    (output : List Byte) : Prop where
  control : t.control = s.control
  contexts : t.contexts = withEntry s c y i (handedEntry s op x e)
  claims : ClaimsFound s t (· = e.frag)
  writes : ∃ os, t.out = s.out ++ (windowWrites x op output r ++ os) ∧
    (op.window + 1 = x.windows → Closes s y os e r .final) ∧
    (op.window + 1 ≠ x.windows → r.count + 1 = r.blank.capacity → Closes s y os e r .filled) ∧
    (op.window + 1 ≠ x.windows → r.count + 1 ≠ r.blank.capacity → os = [])

theorem find?_erase_of_not {α : Type} [BEq α] [LawfulBEq α] (l : List α) (k : α) (f : α → Bool) (other : f k = false) :
    (l.erase k).find? f = l.find? f := by
  induction l with
  | nil => rfl
  | cons a l ih =>
    rw [List.erase_cons]
    split
    · next same =>
      rw [← beq_iff_eq.1 same] at other
      rw [List.find?_cons_of_neg (by simp [other])]
    · cases found : f a with
      | true => rw [List.find?_cons_of_pos found, List.find?_cons_of_pos found]
      | false => rw [List.find?_cons_of_neg (by simp [found]), List.find?_cons_of_neg (by simp [found]), ih]

section
variable {s : State} {c : CtxId} {y : Context} {i : Nat} {e : LostEntry} {p : LaneId} {r : OpenRecord}

theorem handOver_open_delivers (x : Context) (op : Combine) (output : List Byte) (h : Calm s)
    (used : s.contexts[c] = some y) (entry : y.lost[i]? = some e) (lane : e.lane = some p) (opened : e.openRecord = some r) :
    HandedOver s (handOver c x op i output s) c y x op i e r output := by
  have handed : handedEntry s op x e = { e with openRecord := leftOpen (op.window + 1 = x.windows) r } := by
    simp only [handedEntry, deliveryRecord, opened, Option.some_or, Option.bind_some, reduceCtorEq, if_false, Nat.add_zero]
  obtain ⟨filled, isFilled⟩ : ∃ v, filledState s c y i e r op.window x.profile.windowBytes (output.take op.validLength)
    (windowCheck output) = v := ⟨_, rfl⟩
  have run := handOver_open x op output h used entry lane opened
  dsimp only at run
  rw [isFilled] at run
  have control : filled.control = s.control := by rw [← isFilled]; rfl
  have lanes : filled.lanes = s.lanes := by rw [← isFilled]; rfl
  have out : filled.out = s.out ++ windowWrites x op output r := by rw [← isFilled]; rfl
  have calm := h.of_control control
  have closing (status : DeliveryStatus) (ends : handOver c x op i output s =
        { returnRecord p r.blank.addr (closingFields y e r status) filled with
          contexts := withEntry s c y i { e with openRecord := none } })
      (full : leftOpen (op.window + 1 = x.windows) r = none)
      (which : (op.window + 1 = x.windows ∧ status = .final) ∨
        (op.window + 1 ≠ x.windows ∧ r.count + 1 = r.blank.capacity ∧ status = .filled)) :
      HandedOver s (handOver c x op i output s) c y x op i e r output := by
    obtain ⟨ev, os, returned, -⟩ := returnRecord_calm p r.blank.addr (closingFields y e r status) calm
    rw [ends, returned]
    refine ⟨control, ?_, fun q f _ => ?_, ?_⟩
    · rw [handed, full]
    · simp only [lanes, getElem_set_lane]
      split
      · next same => rw [same]
      · rfl
    · obtain ⟨closes, isCloses⟩ : ∃ closes,
          issued (recordWrites filled p r.blank.addr (closingFields y e r status)) filled.out.length ++ os = closes := ⟨_, rfl⟩
      have closed : Closes s y closes e r status := by
        refine ⟨filled, filled.out.length, p, lane, by rw [control], ?_⟩
        rw [← isCloses]
        exact (List.prefix_append _ _).isInfix
      rw [isCloses, out, List.append_assoc]
      refine ⟨closes, rfl, fun last => ?_, fun inner full => ?_, fun inner room => ?_⟩
      · rcases which with ⟨-, rfl⟩ | ⟨inner, -⟩
        · exact closed
        · exact absurd last inner
      · rcases which with ⟨last, -⟩ | ⟨-, -, rfl⟩
        · exact absurd last inner
        · exact closed
      · rcases which with ⟨last, -⟩ | ⟨-, full, -⟩
        · exact absurd last inner
        · exact absurd full room
  by_cases last : op.window + 1 = x.windows
  · rw [if_pos last] at run
    exact closing .final run (if_pos last) (.inl ⟨last, rfl⟩)
  · rw [if_neg last] at run
    by_cases full : r.count + 1 = r.blank.capacity
    · rw [if_pos full] at run
      exact closing .filled run ((if_neg last).trans (if_pos full)) (.inr ⟨last, full, rfl⟩)
    · rw [if_neg full] at run
      have left : leftOpen (op.window + 1 = x.windows) r = some { r with count := r.count + 1 } :=
        (if_neg last).trans (if_neg full)
      rw [run]
      refine ⟨control, ?_, fun q f _ => by rw [lanes], [], by rw [out, List.append_nil], fun last' => absurd last' last,
        fun _ full' => absurd full' full, fun _ _ => rfl⟩
      rw [handed, left, ← isFilled]
      rfl

/-- A handover, into the open record or into one opened from the claimed blank. -/
theorem handOver_delivers (x : Context) (op : Combine) (output : List Byte) (h : Calm s)
    (used : s.contexts[c] = some y) (entry : y.lost[i]? = some e) (lane : e.lane = some p)
    (record : deliveryRecord s op.window e = some r) :
    HandedOver s (handOver c x op i output s) c y x op i e r output := by
  cases opened : e.openRecord with
  | some r' =>
    have same : r' = r := by simpa [deliveryRecord, opened] using record
    subst same
    exact handOver_open_delivers x op output h used entry lane opened
  | none =>
    obtain ⟨k, found, begins⟩ : ∃ k, claimedFor s e = some k ∧ ({ blank := k.blank, first := op.window, count := 0 } : OpenRecord) = r := by
      simpa [deliveryRecord, opened] using record
    have here : (s.lanes[p].stock.find? fun k => k.claim == some e.frag) = some k := by simpa [claimedFor, lane] using found
    have opens := openClaimed_claimed used entry lane opened here op.window
    obtain ⟨t, isT⟩ : ∃ t, openClaimed c i op.window s = t := ⟨_, rfl⟩
    rw [isT] at opens
    have calm : Calm t := by rw [opens]; exact h
    have bound : i < y.lost.length := (List.getElem?_eq_some_iff.1 entry).1
    have usedT : t.contexts[c] = some { y with lost := y.lost.set i (openedEntry e k op.window) } := by
      rw [opens]; exact withEntry_same s c y i _
    have entryT : (y.lost.set i (openedEntry e k op.window))[i]? = some (openedEntry e k op.window) := by simp [bound]
    have recordT : (openedEntry e k op.window).openRecord = some r := by rw [← begins]; rfl
    have again : handOver c x op i output s = handOver c x op i output t := by
      have first : handOver c x op i output t = inOrder [fillRecord c i op.window x.profile.windowBytes
          (output.take op.validLength) (windowCheck output), closeIfDone c i (op.window + 1 == x.windows)] t := by
        rw [handOver, inOrder_step _ _ _ calm.2, openClaimed_opened usedT entryT recordT]
      rw [first, handOver, inOrder_step _ _ _ h.2, isT]
    have rest := handOver_open_delivers x op output calm usedT entryT lane recordT
    rw [← again] at rest
    have anchor : t.control.anchor = s.control.anchor := by rw [opens]
    have claims : ClaimsFound s t (· = e.frag) := fun q f other => by
      have mine : k.claim = some e.frag := by simpa using List.find?_some here
      simp only [opens, getElem_set_lane]
      split
      · next same =>
        subst same
        exact find?_erase_of_not _ k _ (by simp [mine, Ne.symm other])
      · rfl
    obtain ⟨os, out, final, filled, open_⟩ := rest.writes
    refine ⟨rest.control.trans (by rw [opens]), ?_, fun q f other => (rest.claims q f other).trans (claims q f other), os, ?_,
      fun last => ?_, fun inner full => ?_, open_⟩
    · rw [rest.contexts]
      have handed : handedEntry t op x (openedEntry e k op.window) = handedEntry s op x e := by
        simp only [handedEntry, deliveryRecord, openedEntry, opened, found, Option.some_or, Option.none_or, Option.map_some,
          Option.bind_some, reduceCtorEq, if_false, if_true, Nat.add_zero]
      rw [handed]
      simp only [opens, withEntry, List.set_set]
      exact Vector.set_set _ c.isLt
    · rw [out, opens]
    · obtain ⟨u, n, q, lane', anchor', closes⟩ := final last
      exact ⟨u, n, q, lane', anchor'.trans anchor, closes⟩
    · obtain ⟨u, n, q, lane', anchor', closes⟩ := filled inner full
      exact ⟨u, n, q, lane', anchor'.trans anchor, closes⟩

end

/-! ## All handovers of a combine, in lost-list order (R120) -/

/-- The lost list when the first `n` fragments have been handed over. -/
def handedLost (s : State) (op : Combine) (x : Context) (n : Nat) : List LostEntry :=
  x.lost.mapIdx fun j e => if j < n then handedEntry s op x e else e

/-- The window writes of the first `n` handovers. -/
def handoverWrites (s : State) (op : Combine) (x : Context) (output : Nat → List Byte) (n : Nat) : List Output :=
  (List.range n).flatMap fun i =>
    match (x.lost[i]?).bind (deliveryRecord s op.window) with
    | none => []
    | some r => windowWrites x op (output i) r

/-- What the closings of the first `n` handovers have issued. -/
def ClosedUpTo (s : State) (op : Combine) (x : Context) (n : Nat) (os : List Output) : Prop :=
  ∀ j < n, ∀ e r, x.lost[j]? = some e → deliveryRecord s op.window e = some r →
    (op.window + 1 = x.windows → Closes s x os e r .final) ∧
      (op.window + 1 ≠ x.windows → r.count + 1 = r.blank.capacity → Closes s x os e r .filled)

/-- What the first `n` handovers do. -/
structure HandedUpTo (s t : State) (op : Combine) (x : Context) (output : Nat → List Byte) (n : Nat) : Prop where
  control : t.control = s.control
  contexts : t.contexts = s.contexts.set op.ctx (some { x with lost := handedLost s op x n })
  claims : ClaimsFound s t fun f => ∃ j < n, ∃ e, x.lost[j]? = some e ∧ e.frag = f
  writes : ∃ os, t.out = s.out ++ os ∧ List.Sublist (handoverWrites s op x output n) os ∧ ClosedUpTo s op x n os ∧
    ((∀ e ∈ x.lost, ∃ r, e.openRecord = some r ∧ r.count + 1 < r.blank.capacity) → op.window + 1 ≠ x.windows →
      os = handoverWrites s op x output n)

section
variable {s t : State} {op : Combine} {x : Context} {output : Nat → List Byte} {n : Nat}

theorem handedLost_getElem? (s : State) (op : Combine) (x : Context) (n j : Nat) :
    (handedLost s op x n)[j]? = (x.lost[j]?).map fun e => if j < n then handedEntry s op x e else e := by
  rw [handedLost, List.getElem?_mapIdx]

theorem handedLost_zero : handedLost s op x 0 = x.lost := by
  refine List.ext_getElem? fun j => ?_
  rw [handedLost_getElem?]
  simp

theorem handedLost_succ {e : LostEntry} (entry : x.lost[n]? = some e) :
    (handedLost s op x n).set n (handedEntry s op x e) = handedLost s op x (n + 1) := by
  have bound : n < x.lost.length := (List.getElem?_eq_some_iff.1 entry).1
  refine List.ext_getElem? fun j => ?_
  rw [List.getElem?_set, handedLost_getElem?, handedLost_getElem?]
  by_cases same : n = j
  · subst same
    rw [if_pos rfl, if_pos (by simpa [handedLost] using bound), entry]
    simp
  · rw [if_neg same]
    have iff : j < n ↔ j < n + 1 := by omega
    simp only [iff]

theorem handoverWrites_succ {e : LostEntry} {r : OpenRecord} (entry : x.lost[n]? = some e)
    (record : deliveryRecord s op.window e = some r) :
    handoverWrites s op x output (n + 1) = handoverWrites s op x output n ++ windowWrites x op (output n) r := by
  simp only [handoverWrites, List.range_succ, List.flatMap_append, List.flatMap_cons, List.flatMap_nil, List.append_nil, entry,
    Option.bind_some, record]

theorem Closes.mono {os os' : List Output} {e : LostEntry} {r : OpenRecord} {status : DeliveryStatus}
    (h : Closes s x os e r status) (inside : os <:+: os') : Closes s x os' e r status := by
  obtain ⟨u, m, p, lane, anchor, here⟩ := h
  exact ⟨u, m, p, lane, anchor, here.trans inside⟩

theorem handedUpTo_zero (used : s.contexts[op.ctx] = some x) : HandedUpTo s s op x output 0 := by
  refine ⟨rfl, ?_, fun _ _ _ => rfl, [], (List.append_nil _).symm, ?_, fun j lt => absurd lt (Nat.not_lt_zero j), fun _ _ => rfl⟩
  · rw [handedLost_zero, set_same used]
  · exact List.nil_sublist []

/-- One more handover. -/
theorem HandedUpTo.step (h : Calm s) (done : HandedUpTo s t op x output n) (distinct : (x.lost.map LostEntry.frag).Nodup)
    {e : LostEntry} {p : LaneId} {r : OpenRecord} (entry : x.lost[n]? = some e) (lane : e.lane = some p)
    (record : deliveryRecord s op.window e = some r) :
    HandedUpTo s (handOver op.ctx x op n (output n) t) op x output (n + 1) := by
  have calm := h.of_control done.control
  have used : t.contexts[op.ctx] = some { x with lost := handedLost s op x n } := by
    rw [done.contexts]; exact Vector.getElem_set_self _
  have entryT : (handedLost s op x n)[n]? = some e := by rw [handedLost_getElem?, entry]; simp
  have mine : ¬∃ j < n, ∃ d, x.lost[j]? = some d ∧ d.frag = e.frag := by
    rintro ⟨j, lt, d, other, same⟩
    have here : (x.lost.map LostEntry.frag)[j]? = some e.frag := by rw [List.getElem?_map, other, Option.map_some, same]
    have there : (x.lost.map LostEntry.frag)[n]? = some e.frag := by rw [List.getElem?_map, entry, Option.map_some]
    obtain ⟨bound, atJ⟩ := List.getElem?_eq_some_iff.1 here
    obtain ⟨bound', atN⟩ := List.getElem?_eq_some_iff.1 there
    exact absurd (distinct.getElem_inj_iff.1 (atJ.trans atN.symm)) lt.ne
  have recordT : deliveryRecord t op.window e = deliveryRecord s op.window e := by
    simp only [deliveryRecord, claimedFor, lane, Option.bind_some, done.claims p e.frag mine]
  have handed : handedEntry t op x e = handedEntry s op x e := by simp only [handedEntry, recordT]
  have step := handOver_delivers x op (output n) calm used entryT lane (recordT.trans record)
  obtain ⟨os, out, sub, closed, exactly⟩ := done.writes
  obtain ⟨os', out', final, filled, room⟩ := step.writes
  have closes {status : DeliveryStatus} (here : Closes t { x with lost := handedLost s op x n } os' e r status) :
      Closes s x (os ++ (windowWrites x op (output n) r ++ os')) e r status := by
    obtain ⟨u, m, q, lane', anchor, inside⟩ := here
    exact ⟨u, m, q, lane', anchor.trans (by rw [done.control]),
      inside.trans (((List.suffix_append _ _).trans (List.suffix_append _ _)).isInfix)⟩
  refine ⟨step.control.trans done.control, ?_, fun q f others => ?_, os ++ (windowWrites x op (output n) r ++ os'), ?_, ?_,
    fun j lt d g entry' record' => ?_, fun rooms inner => ?_⟩
  · rw [step.contexts, handed]
    simp only [withEntry, handedLost_succ entry, done.contexts]
    exact Vector.set_set _ op.ctx.isLt
  · refine (step.claims q f fun same => ?_).trans (done.claims q f fun ⟨j, lt, d, other, same⟩ => ?_)
    · exact others ⟨n, Nat.lt_succ_self n, e, entry, same.symm⟩
    · exact others ⟨j, lt.trans (Nat.lt_succ_self n), d, other, same⟩
  · rw [out', out, List.append_assoc]
  · rw [handoverWrites_succ entry record]
    exact sub.append (List.sublist_append_left _ _)
  · rcases Nat.lt_succ_iff_lt_or_eq.1 lt with before | rfl
    · obtain ⟨last, full⟩ := closed j before d g entry' record'
      exact ⟨fun at_end => (last at_end).mono (List.prefix_append _ _).isInfix,
        fun inner filled => (full inner filled).mono (List.prefix_append _ _).isInfix⟩
    · obtain rfl : d = e := Option.some.inj (entry'.symm.trans entry)
      obtain rfl : g = r := Option.some.inj (record'.symm.trans record)
      exact ⟨fun at_end => closes (final at_end), fun inner full => closes (filled inner full)⟩
  · obtain ⟨g, opened, space⟩ := rooms e (List.mem_of_getElem? entry)
    obtain rfl : g = r := by simpa [deliveryRecord, opened] using record
    rw [handoverWrites_succ entry record, room inner space.ne, List.append_nil, exactly rooms inner]

theorem fillRecord_control (c : CtxId) (i w S : Nat) (bytes check : List Byte) (h : Calm s) :
    (fillRecord c i w S bytes check s).control = s.control := by
  unfold fillRecord
  split
  · rfl
  · refine (inOrder_calm h fun f mem u calm => ?_).2
    simp only [List.mem_cons, List.not_mem_nil, or_false] at mem
    rcases mem with rfl | rfl | rfl
    · rw [writeHost_calm _ _ _ calm]; rfl
    · rw [writeHost_calm _ _ _ calm]; rfl
    · exact (modifyLost_work c i _ u).control_eq

theorem handOver_control (c : CtxId) (i : Nat) (bytes : List Byte) (h : Calm s) :
    (handOver c x op i bytes s).control = s.control := by
  refine (inOrder_calm h fun f mem u calm => ?_).2
  simp only [List.mem_cons, List.not_mem_nil, or_false] at mem
  rcases mem with rfl | rfl | rfl
  · exact (openClaimed_work c i _ u).control_eq
  · exact fillRecord_control c i _ _ _ _ calm
  · unfold closeIfDone
    split
    · rfl
    · split
      · exact closeFragment_control c i _ calm
      · split
        · exact closeFragment_control c i _ calm
        · rfl

/-- The handovers of a combine, one for each lost fragment. -/
theorem handovers_delivered (h : Calm s) (used : s.contexts[op.ctx] = some x) (distinct : (x.lost.map LostEntry.frag).Nodup)
    (ready : ∀ e ∈ x.lost, e.lane.isSome = true ∧ (deliveryRecord s op.window e).isSome = true) :
    HandedUpTo s ((List.range x.lost.length).foldl (fun u i => handOver op.ctx x op i (output i) u) s) op x output
      x.lost.length := by
  have upTo (n : Nat) (bound : n ≤ x.lost.length) :
      HandedUpTo s ((List.range n).foldl (fun u i => handOver op.ctx x op i (output i) u) s) op x output n := by
    induction n with
    | zero => exact handedUpTo_zero used
    | succ n ih =>
      have entry : x.lost[n]? = some x.lost[n] := List.getElem?_eq_getElem (by omega)
      obtain ⟨lane, record⟩ := ready _ (List.getElem_mem (by omega : n < x.lost.length))
      obtain ⟨p, atP⟩ := Option.isSome_iff_exists.1 lane
      obtain ⟨r, isR⟩ := Option.isSome_iff_exists.1 record
      rw [List.range_succ, List.foldl_append]
      exact (ih (by omega)).step h distinct entry atP isR
  exact upTo _ le_rfl

end

end Sys2Proof.Proofs

/-! PROOFS. A combine that stands with every survivor passing (R119 to R121). -/

namespace Sys2Proof.Proofs

open Sys2Proof Sys2Proof.Machine

/-! ## The end of a window (R121) -/

section
variable {s : State} {c : CtxId} {z : Context}

theorem evalStraggler_advanced (x : Context) (now interval : Nat) : x.evalStraggler now interval true =
    if x.stragglerCondition = true then { x with stragglerArmed := true, stragglerDeadline := some (now + interval) }
    else { x with stragglerArmed := false, stragglerDeadline := none } := by
  simp [Context.evalStraggler]

theorem finishWindow_inner {front : Nat} (used : s.contexts[c] = some z) (active : z.state = .active)
    (inner : front ≠ z.windows) : finishWindow c front s = { s with
      contexts := s.contexts.set c (some ((z.advanceFront front).evalStraggler s.now s.control.timers.straggler true)) } := by
  have advanced := modifyContext_some s c (fun x => x.advanceFront front) z used
  have here := setContext_same s c (some (z.advanceFront front))
  simp only [finishWindow, advanced, here]
  rw [if_neg (by exact inner), evaluateStraggler_active (s := setContext c (some (z.advanceFront front)) s) true here active]
  exact congrArg (fun v => { s with contexts := v }) (Vector.set_set _ c.isLt)

theorem finishWindow_last {front : Nat} (used : s.contexts[c] = some z) (last : front = z.windows) :
    finishWindow c front s = enterDraining c .complete .none (setContext c (some (z.advanceFront front)) s) := by
  have advanced := modifyContext_some s c (fun x => x.advanceFront front) z used
  have here := setContext_same s c (some (z.advanceFront front))
  simp only [finishWindow, advanced, here]
  exact if_pos last

end

/-! ## The good combine (R119, R120) -/

/-- The kinds of a handover's acts. -/
abbrev handKinds : List Kind := .unstock :: .edit :: chainKinds

theorem handOver_hands (c : CtxId) (x : Context) (op : Combine) (i : Nat) (output : List Byte) (s : State) :
    Work handKinds s (handOver c x op i output s) :=
  inOrder_cons_work (fun t => (openClaimed_work _ _ _ t).mono) (inOrder_cons_work (fun t => (fillRecord_work _ _ _ _ _ _ t).mono)
    (inOrder_one_work fun t => (closeIfDone_work _ _ _ t).mono)) s

/-- A combine whose survivors pass and whose predictions are met. -/
structure GoodCombine (s : State) (op : Combine) (x : Context) (reads : List SurvivorRead) : Prop where
  engine : s.control.engine = .running ∨ s.control.engine = .dozing
  combine : s.combine = some op
  used : s.contexts[op.ctx] = some x
  fit : readsFit op reads = true
  active : x.state = .active
  stands : discards op x = false
  off : s.unfenced
  passing : ∀ v ∈ List.zipWith (survivorOf x.profile.windowBytes) op.members reads, v.fails x.profile.mask = false
  met : endsInMismatch x.profile.mask x.profile.windowBytes op.rows
    (List.zipWith (survivorOf x.profile.windowBytes) op.members reads) false = false
  rows : op.rows.length = x.lost.length
  distinct : (x.lost.map LostEntry.frag).Nodup
  ready : ∀ e ∈ x.lost, e.lane.isSome = true ∧ (deliveryRecord s op.window e).isSome = true

/-- The output of a lost fragment. -/
def combineOutput (op : Combine) (x : Context) (reads : List SurvivorRead) (i : Nat) : List Byte :=
  combineWindows x.profile.windowBytes (op.rows.getD i [])
    ((List.zipWith (survivorOf x.profile.windowBytes) op.members reads).map Survivor.window)

section
variable {s : State} {op : Combine} {x : Context} {reads : List SurvivorRead}

theorem GoodCombine.calm (h : GoodCombine s op x reads) : Calm { s with combine := none } :=
  calm_of_working (s := s) h.off (h.engine.imp_right .inl)

/-- The handovers of a good combine, and then the end of its window. -/
theorem GoodCombine.acted (h : GoodCombine s op x reads) : ∃ u,
    HandedUpTo { s with combine := none } u op x (combineOutput op x reads) x.lost.length ∧
      Work handKinds { s with combine := none } u ∧
      actOnCombine op reads false { s with combine := none } = finishWindow op.ctx (op.window + 1) u := by
  have calm := h.calm
  have stands := actOnCombine_stands (s := { s with combine := none }) reads false h.used h.stands
  have passing : (List.zipWith (survivorOf x.profile.windowBytes) op.members reads).filter
      (fun v => v.fails x.profile.mask) = [] :=
    List.filter_eq_nil_iff.2 fun v mem fails => by simp [h.passing v mem] at fails
  have fs : (outputWindows x.profile.windowBytes op.rows
        (List.zipWith (survivorOf x.profile.windowBytes) op.members reads)).mapIdx
          (fun i output => handOver op.ctx x op i output) =
      (List.range x.lost.length).map fun i => handOver op.ctx x op i (combineOutput op x reads i) := by
    refine List.ext_getElem (by simp [outputWindows, h.rows]) fun i lt _ => ?_
    have inRows : i < op.rows.length := by simpa [outputWindows] using lt
    simp [outputWindows, combineOutput, inRows]
  have folded := inOrder_calm (fs := (List.range x.lost.length).map fun i =>
    handOver op.ctx x op i (combineOutput op x reads i)) calm fun f mem t calm => by
      obtain ⟨i, -, rfl⟩ := List.mem_map.1 mem
      exact handOver_control op.ctx i _ calm
  refine ⟨_, handovers_delivered calm h.used h.distinct h.ready, foldl_work (fun t i => handOver_hands _ _ _ i _ t) _ _, ?_⟩
  rw [stands]
  dsimp only
  rw [passing, h.met, fs, inOrder_append, inOrder_one _ ((calm.of_control folded.2).2), folded.1, List.foldl_map]
  rfl

end

section
variable {s : State} {op : Combine} {x : Context} {reads : List SurvivorRead}

theorem turnOver_leaves_none {c : CtxId} {w : State} (idle : (turnOver c w).arbiter.grantee = none) :
    (turnOver c w).readyContexts = [] := by
  unfold turnOver arbitrate at *
  generalize reevaluate (retryWaiting (endOfTurn c (reevaluate (retryWaiting w)))) = v at *
  exact grantNext_leaves_none idle

/-- The unit is granted again at the end of a turn while a ready context waits (R112). -/
theorem endEvent_turnOver_grants {c : CtxId} {w : State} (idle : (endEvent (turnOver c w)).arbiter.grantee = none) :
    (endEvent (turnOver c w)).readyContexts = [] := by
  have arbiter := (endEvent_work (turnOver c w)).arbiter_eq
  have empty : (turnOver c w).readyContexts = [] := turnOver_leaves_none (by rw [arbiter] at idle; exact idle)
  rw [State.readyContexts, arbiter]
  exact empty

theorem GoodCombine.runs (h : GoodCombine s op x reads) :
    ∃ t, exec (.combineCompletion reads false) s = .next t ∧ (t.arbiter.grantee = none → t.readyContexts = []) := by
  obtain ⟨u, handed, -, acted⟩ := h.acted
  have calm : Calm (finishWindow op.ctx (op.window + 1) u) :=
    h.calm.of_control ((finishWindow_work op.ctx (op.window + 1) u).control_eq.trans handed.control)
  exact ⟨_, exec_combineCompletion (h.engine.imp_right .inl) h.combine h.fit acted calm.2 rfl
    (calm.of_control (finishIfDue_control op.ctx calm)).2, endEvent_turnOver_grants⟩

/-- What a state says of a context whose window is behind it. -/
theorem advanced_of (s : State) (z : Context) (front : Nat) :
    ∃ armed deadline, (z.advanceFront front).evalStraggler s.now s.control.timers.straggler true =
        { z with
          front := front, stragglerArmed := armed, stragglerDeadline := deadline
          roster := z.roster.map fun k => { k with ranges := k.ranges.filter fun r => decide (front < r.first + r.count) } } ∧
      ((z.advanceFront front).stragglerCondition = true →
        armed = true ∧ deadline = some (s.now + s.control.timers.straggler)) ∧
      (¬(z.advanceFront front).stragglerCondition = true → armed = false ∧ deadline = none) := by
  rw [evalStraggler_advanced]
  by_cases condition : (z.advanceFront front).stragglerCondition = true
  · rw [if_pos condition]
    exact ⟨_, _, rfl, fun _ => ⟨rfl, rfl⟩, fun fails => absurd condition fails⟩
  · rw [if_neg condition]
    exact ⟨_, _, rfl, fun holds => absurd holds condition, fun _ => ⟨rfl, rfl⟩⟩

/-- A good combine before the last window. -/
theorem GoodCombine.inner (h : GoodCombine s op x reads) (before : op.window + 1 ≠ x.windows) :
    ∃ t, exec (.combineCompletion reads false) s = .next t ∧ (t.arbiter.grantee = none → t.readyContexts = []) ∧
      (∃ y lost armed deadline, t.contexts[op.ctx] = some y ∧
        y = { x with
          lost := lost, front := op.window + 1, stragglerArmed := armed, stragglerDeadline := deadline
          roster := x.roster.map fun k =>
            { k with ranges := k.ranges.filter fun r => decide (op.window + 1 < r.first + r.count) } } ∧
        lost.map unmarked = (handedLost s op x x.lost.length).map unmarked ∧
        ((x.advanceFront (op.window + 1)).stragglerCondition = true →
          armed = true ∧ deadline = some (s.now + s.control.timers.straggler)) ∧
        (¬(x.advanceFront (op.window + 1)).stragglerCondition = true → armed = false ∧ deadline = none)) ∧
      ∃ os later, t.out = s.out ++ (os ++ later) ∧
        List.Sublist (handoverWrites s op x (combineOutput op x reads) x.lost.length) os ∧
        ClosedUpTo s op x x.lost.length os ∧
        ((∀ e ∈ x.lost, ∃ r, e.openRecord = some r ∧ r.count + 1 < r.blank.capacity) →
          os = handoverWrites s op x (combineOutput op x reads) x.lost.length) := by
  obtain ⟨u, handed, work, acted⟩ := h.acted
  have calm := h.calm.of_control handed.control
  have used : u.contexts[op.ctx] = some { x with lost := handedLost s op x x.lost.length } := by
    rw [handed.contexts]; exact Vector.getElem_set_self _
  have window := finishWindow_inner (front := op.window + 1) used h.active before
  obtain ⟨armed, deadline, advanced, holds, fails⟩ := advanced_of u { x with lost := handedLost s op x x.lost.length }
    (op.window + 1)
  rw [advanced] at window
  obtain ⟨w, isW⟩ : ∃ w, finishWindow op.ctx (op.window + 1) u = w := ⟨_, rfl⟩
  rw [isW] at acted window
  have usedW : w.contexts[op.ctx] = some { x with
      lost := handedLost s op x x.lost.length, front := op.window + 1, stragglerArmed := armed, stragglerDeadline := deadline
      roster := x.roster.map fun k =>
        { k with ranges := k.ranges.filter fun r => decide (op.window + 1 < r.first + r.count) } } := by
    rw [window]; exact Vector.getElem_set_self _
  have liveW : w.halted = false := by rw [window]; exact calm.2
  have still : finishIfDue op.ctx w = w := finishIfDue_of_not_draining usedW (by
    dsimp only
    rw [h.active]
    exact nofun)
  have run := exec_combineCompletion (h.engine.imp_right .inl) h.combine h.fit acted liveW still liveW
  obtain ⟨y, here, kept⟩ := ((turnOver_contextsKept op.ctx w).trans (endEvent_contextsKept _)).some usedW
  obtain ⟨same, marks⟩ := kept.marks (by dsimp only; rw [h.active]; exact nofun)
  obtain ⟨os, out, sub, closed, exactly⟩ := handed.writes
  obtain ⟨later, out'⟩ := ((turnOver_work op.ctx w).logKept.2.2.2).trans (endEvent_work (turnOver op.ctx w)).logKept.2.2.2
  have now : u.now = s.now := work.now_eq
  have control : u.control = s.control := handed.control
  rw [now, control] at holds
  refine ⟨_, run, endEvent_turnOver_grants, ⟨y, y.lost, armed, deadline, here, same, marks, holds, fails⟩, os, later, ?_, sub, closed,
    fun rooms => exactly rooms before⟩
  · rw [← out', ← List.append_assoc]
    refine congrArg (· ++ later) ?_
    rw [window]
    exact out

/-- A good combine at the last window. -/
theorem GoodCombine.last (h : GoodCombine s op x reads) (last : op.window + 1 = x.windows)
    (solve : s.solve.map Solve.ctx ≠ some op.ctx) :
    ∃ t, exec (.combineCompletion reads false) s = .next t ∧ (t.arbiter.grantee = none → t.readyContexts = []) ∧
      t.contexts[op.ctx] = none ∧ t.finishedTail = some x.orderAddr ∧
      ∃ before rest, t.out = s.out ++ (before ++ byteWrite (x.orderAddr + 0x089) 1 :: rest) ∧
        byteWrite (x.orderAddr + 0x088) 2 ∈ rest ∧
        List.Sublist (handoverWrites s op x (combineOutput op x reads) x.lost.length) before ∧
        ClosedUpTo s op x x.lost.length before := by
  obtain ⟨u, handed, work, acted⟩ := h.acted
  have used : u.contexts[op.ctx] = some { x with lost := handedLost s op x x.lost.length } := by
    rw [handed.contexts]; exact Vector.getElem_set_self _
  have window := finishWindow_last (front := op.window + 1) used last
  obtain ⟨v, isV⟩ : ∃ v, setContext op.ctx (some (Context.advanceFront
    { x with lost := handedLost s op x x.lost.length } (op.window + 1))) u = v := ⟨_, rfl⟩
  rw [isV] at window
  have usedV : v.contexts[op.ctx] = some (Context.advanceFront { x with lost := handedLost s op x x.lost.length }
      (op.window + 1)) := by rw [← isV]; exact setContext_same u op.ctx _
  have controlV : v.control = s.control := by rw [← isV]; exact handed.control
  have outV : v.out = u.out := by rw [← isV]; rfl
  have flightV : v.solve = s.solve ∧ v.combine = none := by rw [← isV]; exact ⟨work.solve_eq, work.combine_eq⟩
  have liveV : (Context.advanceFront { x with lost := handedLost s op x x.lost.length } (op.window + 1)).state ≠ .draining := by
    change x.state ≠ .draining
    rw [h.active]
    exact nofun
  obtain ⟨w, isW⟩ : ∃ w, enterDraining op.ctx .complete .none v = w := ⟨_, rfl⟩
  have drained := enterDraining_work op.ctx .complete .none v
  have entered := enterDraining_live (s := v) op.ctx .complete .none _ usedV liveV
  rw [isW] at drained window entered
  have calm : Calm w := h.calm.of_control (drained.control_eq.trans controlV)
  obtain ⟨d, isD⟩ : ∃ d : Context, { (Context.advanceFront { x with lost := handedLost s op x x.lost.length } (op.window + 1)) with
      state := .draining, outcome := .complete, detail := .none, settleDeadline := none, stragglerDeadline := none
      stragglerArmed := false } = d := ⟨_, rfl⟩
  rw [isD] at entered
  have usedW : w.contexts[op.ctx] = some d := by rw [entered]; exact Vector.getElem_set_self _
  have address : d.orderAddr = x.orderAddr := by rw [← isD]; rfl
  have outcome : d.result.outcome = .complete := by rw [← isD]; rfl
  have draining : d.state = .draining := by rw [← isD]
  have lost : d.lost = handedLost s op x x.lost.length := by rw [← isD]; rfl
  have due : drainDue w op.ctx = true := by
    refine drainDue_of usedW draining ?_ ?_
    · rw [drained.solve_eq, flightV.1]; exact solve
    · rw [drained.combine_eq, flightV.2]; exact nofun
  have ended : finishIfDue op.ctx w = finishContext op.ctx w := if_pos due
  have run := exec_combineCompletion (h.engine.imp_right .inl) h.combine h.fit (acted.trans window) calm.2 ended
    (calm.of_control (finishContext_control op.ctx calm)).2
  obtain ⟨free, tail, -⟩ := drainEnds calm usedW (f := turnOver op.ctx) (turnOver_work op.ctx)
  have noneOpen : closeAll op.ctx d w = w := closeAll_noneOpen usedW fun g mem => by
    obtain ⟨j, lt, at_j⟩ := List.mem_iff_getElem.1 (lost ▸ mem)
    have entry := handedLost_getElem? s op x x.lost.length j
    rw [List.getElem?_eq_getElem lt, at_j] at entry
    have bound : j < x.lost.length := by simpa [handedLost] using lt
    rw [List.getElem?_eq_getElem bound, Option.map_some, if_pos bound] at entry
    have ending (o : Option OpenRecord) : o.bind (leftOpen (op.window + 1 = x.windows)) = none := by
      cases o with
      | none => rfl
      | some r => exact if_pos last
    rw [Option.some.inj entry]
    exact ending _
  have leaves := (finishContext_leaves calm usedW).2.1
  rw [noneOpen] at leaves
  obtain ⟨os', finish⟩ := finishAppend_out d.orderAddr d.result d.notify calm
  have writes : finishWrites w d.orderAddr d.result = fieldWrite (d.orderAddr + 0x089) 1 d.result.outcome.code ::
      (finishWrites w d.orderAddr d.result).tail := rfl
  obtain ⟨os, out, sub, closed, -⟩ := handed.writes
  obtain ⟨later, out'⟩ := ((turnOver_work op.ctx (finishContext op.ctx w)).logKept.2.2.2).trans
    (endEvent_work (turnOver op.ctx (finishContext op.ctx w))).logKept.2.2.2
  refine ⟨_, run, endEvent_turnOver_grants, free, tail.trans (by rw [address]), os,
    issued (finishWrites w d.orderAddr d.result).tail (w.out.length + 1) ++ os' ++ later, ?_, ?_, sub, closed⟩
  · have outW : w.out = s.out ++ os := by rw [entered]; exact outV.trans out
    rw [← out', leaves, ← finish, outW, writes, issued_byte, outcome, address]
    simp only [List.append_assoc, List.cons_append, OrderOutcome.code]
    rfl
  · refine List.mem_append_left _ (List.mem_append_left _ ?_)
    rw [← address]
    exact byteWrite_mem_issued (by simp [finishWrites]) _

end

/-! ## The obligation -/

section
variable {s : State} {op : Combine} {x : Context} {reads : List SurvivorRead}

/-- A fragment that is left without a record, or with a counted one, by starvation marks alone unlike its handed entry. -/
theorem handed_of_unmarked {lost : List LostEntry} {n i : Nat} {e : LostEntry} {r : OpenRecord}
    (marks : lost.map unmarked = (handedLost s op x n).map unmarked) (bound : i < n) (entry : x.lost[i]? = some e)
    (record : deliveryRecord s op.window e = some r) :
    ∃ g : LostEntry, lost[i]? = some g ∧ g.lane = e.lane ∧
      g.recordsUsed = e.recordsUsed + (if e.openRecord = none then 1 else 0) ∧
      g.openRecord = leftOpen (op.window + 1 = x.windows) r := by
  have here := congrArg (·[i]?) marks
  simp only [List.getElem?_map, handedLost_getElem?, entry, Option.map_some, if_pos bound] at here
  obtain ⟨g, at_i, same⟩ := Option.map_eq_some_iff.1 here
  have lane := congrArg LostEntry.lane same
  have used := congrArg LostEntry.recordsUsed same
  have opened := congrArg LostEntry.openRecord same
  refine ⟨g, at_i, lane, used, opened.trans ?_⟩
  rw [unmarked, handedEntry, record, Option.bind_some]

end

/-- Settles O49: a handover by `handOver_open` and `openClaimed_claimed`, a combine by its handovers and the end of its
window. -/
theorem goodCombineDeliversAWindow : Obligations.GoodCombineDeliversAWindow := by
  unfold Obligations.GoodCombineDeliversAWindow
  refine ⟨fun s c y i e p used entry lane off live => ?_, fun s op x reads engine combine used fit active uncancelled unaborted
    change generation off => ?_⟩
  · intro set
    have calm : Calm s := ⟨off, not_halted live⟩
    refine ⟨fun w r opened => openClaimed_opened used entry opened w, fun w pre k post unopened stock mine others => ?_,
      fun x op output r opened => handOver_open x op output calm used entry lane opened⟩
    have found : (s.lanes[p].stock.find? fun k => k.claim == some e.frag) = some k :=
      List.find?_eq_some_iff_append.2 ⟨by simp [mine], pre, post, stock, fun j mem => by simpa using others j mem⟩
    have unlike : k ∉ pre := fun mem => others k mem mine
    rw [openClaimed_claimed used entry lane unopened found, stock, List.erase_append_right _ unlike, List.erase_cons_head]
    rfl
  · intro S survivors passing met rows distinct claimed record ready output writes closes
    have good : GoodCombine s op x reads :=
      { engine := engine, combine := combine, used := used, fit := fit, active := active
        stands := not_discards active uncancelled unaborted change generation
        off := off, passing := passing, met := met, rows := rows, distinct := distinct, ready := ready }
    have planned : handoverWrites s op x (combineOutput op x reads) x.lost.length = writes := rfl
    by_cases last : op.window + 1 = x.windows
    · by_cases solve : s.solve.map Solve.ctx ≠ some op.ctx
      · obtain ⟨t, run, made, free, tail, before, rest, out, finished, sub, closed⟩ := good.last last solve
        refine ⟨t, run, made, fun inner => absurd last inner.ne, fun _ _ => ⟨free, tail, before, rest,
          newOutputs_of_append out, finished, planned ▸ sub, fun e mem r isR => ?_⟩⟩
        obtain ⟨j, lt, at_j⟩ := List.mem_iff_getElem.1 mem
        exact (closed j lt e r (by rw [List.getElem?_eq_getElem lt, at_j]) isR).1 last
      · obtain ⟨t, run, made⟩ := good.runs
        exact ⟨t, run, made, fun inner => absurd last inner.ne, fun _ unsolved => absurd unsolved solve⟩
    · obtain ⟨t, run, made, ⟨y, lost, armed, deadline, here, isY, marks, holds, fails⟩, os, later, out, sub, closed, exactly⟩ :=
        good.inner last
      have fresh : newOutputs s t = os ++ later := newOutputs_of_append out
      refine ⟨t, run, made, fun inner => ⟨y, here, ?_⟩, fun at_end => absurd at_end last⟩
      subst isY
      refine ⟨rfl, active, rfl, ?_, ?_, ?_, fun i e r entry isR => ?_, fun rooms => ?_⟩
      · have condition := stragglerCondition_iff (x.advanceFront (op.window + 1))
        refine ⟨rfl, fun held => holds (condition.2 ⟨active, held⟩), fun free => fails fun held => free (condition.1 held).2⟩
      · rw [fresh, ← planned]
        exact sub.trans (List.sublist_append_left _ _)
      · have lengths := congrArg List.length marks
        simpa [handedLost] using lengths
      · have bound : i < x.lost.length := (List.getElem?_eq_some_iff.1 entry).1
        obtain ⟨g, at_i, lane, used', opened⟩ := handed_of_unmarked marks bound entry isR
        refine ⟨g, at_i, lane, used', fun full => ⟨?_, ?_⟩, fun room => ?_⟩
        · rw [opened, leftOpen, if_neg last, if_pos full]
        · rw [fresh]
          exact ((closed i bound e r entry isR).2 last full).mono (List.prefix_append _ _).isInfix
        · rw [opened, leftOpen, if_neg last, if_neg room]
      · rw [out, ← planned, ← exactly rooms, ← List.append_assoc]
        exact List.prefix_append _ _

end Sys2Proof.Proofs

/-! PROOFS. Linear combinations over the field: checks of combined windows (R16, R104), decoding and singularity (R103). -/

namespace Sys2Proof.Proofs

open Sys2Proof Sys2Proof.Machine

/-! ## Sums of products -/

theorem residue_gfSum (l : List Byte) : residue (gfSum l) = (l.map residue).sum := by
  induction l using List.reverseRecOn with
  | nil => simp [gfSum]
  | append_singleton l x ih => rw [gfSum_concat, residue_xor, ih, List.map_append, List.sum_append]; simp

theorem residue_gfDot_cons (x y : Byte) (xs ys : List Byte) :
    residue (gfDot (x :: xs) (y :: ys)) = residue x * residue y + residue (gfDot xs ys) := by
  simp [gfDot, residue_gfSum]

/-- A sum of products, entry by entry; entries past an end count as 0. -/
theorem residue_gfDot {n : Nat} (xs ys : List Byte) (bound : min xs.length ys.length ≤ n) :
    residue (gfDot xs ys) = ∑ i ∈ Finset.range n, residue (xs.getD i 0#8) * residue (ys.getD i 0#8) := by
  induction xs generalizing ys n with
  | nil => simp [gfDot, gfSum]
  | cons x xs ih =>
    cases ys with
    | nil => simp [gfDot, gfSum]
    | cons y ys =>
      obtain ⟨m, rfl⟩ := Nat.exists_eq_add_of_le' (show 1 ≤ n by simp at bound; omega)
      rw [residue_gfDot_cons, ih ys (n := m) (by simp at bound; omega), Finset.sum_range_succ']
      simp [add_comm]

theorem gfDot_scale (e : Byte) (xs ys : List Byte) : gfDot (xs.map (gfMul e)) ys = gfMul e (gfDot xs ys) := by
  refine residue_injective ?_
  rw [residue_gfMul, residue_gfDot _ _ le_rfl, residue_gfDot xs ys le_rfl, List.length_map, Finset.mul_sum]
  refine Finset.sum_congr rfl fun i _ => ?_
  have entry : residue ((xs.map (gfMul e)).getD i 0#8) = residue e * residue (xs.getD i 0#8) := by
    rw [← residue_gfMul, List.getD_eq_getElem?_getD, List.getD_eq_getElem?_getD, List.getElem?_map]
    cases xs[i]? with
    | none => simp [gfMul_zero]
    | some x => rfl
  rw [entry, mul_assoc]

theorem getD_zipWith_xor {xs ys : List Byte} (same : xs.length = ys.length) (i : Nat) :
    (List.zipWith (· ^^^ ·) xs ys).getD i 0#8 = xs.getD i 0#8 ^^^ ys.getD i 0#8 := by
  simp only [List.getD_eq_getElem?_getD, List.getElem?_zipWith]
  rcases lt_or_ge i xs.length with lt | ge
  · rw [List.getElem?_eq_getElem lt, List.getElem?_eq_getElem (same ▸ lt)]
    rfl
  · rw [List.getElem?_eq_none ge, List.getElem?_eq_none (same ▸ ge)]
    rfl

theorem gfDot_add {xs ys : List Byte} (same : xs.length = ys.length) (zs : List Byte) :
    gfDot (List.zipWith (· ^^^ ·) xs ys) zs = gfDot xs zs ^^^ gfDot ys zs := by
  refine residue_injective ?_
  have left : min (List.zipWith (· ^^^ ·) xs ys).length zs.length ≤ zs.length := min_le_right _ _
  rw [residue_xor, residue_gfDot _ _ left, residue_gfDot xs zs (min_le_right _ _), residue_gfDot ys zs (min_le_right _ _),
    ← Finset.sum_add_distrib]
  exact Finset.sum_congr rfl fun i _ => by rw [getD_zipWith_xor same, residue_xor, add_mul]

theorem gfDot_unitRow {k f : Nat} (inside : f < k) (zs : List Byte) : gfDot (unitRow k f) zs = zs.getD f 0#8 := by
  refine residue_injective ?_
  have length : (unitRow k f).length = k := by simp [unitRow]
  rw [residue_gfDot (n := k) _ _ (by rw [length]; exact min_le_left _ _),
    Finset.sum_eq_single_of_mem f (Finset.mem_range.2 inside)]
  · simp [unitRow, inside]
  · intro j mem other
    have lt := Finset.mem_range.1 mem
    simp [unitRow, lt, other]

/-- A row times a matrix, times a column: the row times the matrix's product with the column. -/
theorem gfDot_rowTimesMatrix {row : List Byte} {M : List (List Byte)} {zs : List Byte} (rows : M.length = row.length)
    (columns : ∀ r ∈ M, r.length = row.length) :
    gfDot (rowTimesMatrix row M) zs = gfDot row (M.map fun r => gfDot r zs) := by
  refine residue_injective ?_
  have length : (rowTimesMatrix row M).length = row.length := by simp [rowTimesMatrix]
  rw [residue_gfDot (n := row.length) _ _ (by rw [length]; exact min_le_left _ _),
    residue_gfDot (n := row.length) _ _ (min_le_left _ _)]
  have entry (i : Nat) (lt : i < row.length) : residue ((rowTimesMatrix row M).getD i 0#8) =
      ∑ j ∈ Finset.range row.length, residue (row.getD j 0#8) * residue ((M.getD j []).getD i 0#8) := by
    have here : (rowTimesMatrix row M).getD i 0#8 = gfDot row (M.map fun r => r.getD i 0#8) := by
      simp [rowTimesMatrix, lt]
    rw [here, residue_gfDot (n := row.length) _ _ (min_le_left _ _)]
    refine Finset.sum_congr rfl fun j mem => ?_
    have bound : j < M.length := rows ▸ Finset.mem_range.1 mem
    simp [bound]
  have column (j : Nat) (lt : j < row.length) : residue ((M.map fun r => gfDot r zs).getD j 0#8) =
      ∑ i ∈ Finset.range row.length, residue ((M.getD j []).getD i 0#8) * residue (zs.getD i 0#8) := by
    have bound : j < M.length := rows ▸ lt
    have here : (M.map fun r => gfDot r zs).getD j 0#8 = gfDot (M.getD j []) zs := by simp [bound]
    have size : (M.getD j []).length = row.length := by
      rw [List.getD_eq_getElem _ _ bound]
      exact columns _ (List.getElem_mem bound)
    rw [here, residue_gfDot (n := row.length) _ _ (by rw [size]; exact min_le_left _ _)]
  rw [Finset.sum_congr rfl fun i mem => by rw [entry i (Finset.mem_range.1 mem), Finset.sum_mul], Finset.sum_comm]
  refine Finset.sum_congr rfl fun j mem => ?_
  rw [column j (Finset.mem_range.1 mem), Finset.mul_sum]
  exact Finset.sum_congr rfl fun i _ => mul_assoc _ _ _

/-! ## Checks of combined windows (R16, R104) -/

theorem xor_gfMul (a b g : Byte) : gfMul (a ^^^ b) g = gfMul a g ^^^ gfMul b g := by
  rw [gfMul_comm, gfMul_xor, gfMul_comm g a, gfMul_comm g b]

theorem checkLane_add (g : Byte) {xs ys : List Byte} (same : xs.length = ys.length) :
    checkLane g (List.zipWith (· ^^^ ·) xs ys) = checkLane g xs ^^^ checkLane g ys := by
  have from_ (xs : List Byte) : ∀ (ys : List Byte) (a b : Byte), xs.length = ys.length →
      (List.zipWith (· ^^^ ·) xs ys).foldl (fun h x => gfMul h g ^^^ x) (a ^^^ b) =
        xs.foldl (fun h x => gfMul h g ^^^ x) a ^^^ ys.foldl (fun h x => gfMul h g ^^^ x) b := by
    induction xs with
    | nil =>
      intro ys a b same
      rw [List.length_eq_zero_iff.1 same.symm]
      rfl
    | cons x xs ih =>
      intro ys a b same
      cases ys with
      | nil => simp at same
      | cons y ys =>
        have shuffle : gfMul (a ^^^ b) g ^^^ (x ^^^ y) = (gfMul a g ^^^ x) ^^^ (gfMul b g ^^^ y) := by
          rw [xor_gfMul]
          ac_rfl
        rw [List.zipWith_cons_cons, List.foldl_cons, List.foldl_cons, List.foldl_cons, shuffle]
        exact ih ys _ _ (by simpa using same)
  exact from_ xs ys 0#8 0#8 same

theorem checkLane_scale (g e : Byte) (xs : List Byte) : checkLane g (xs.map (gfMul e)) = gfMul e (checkLane g xs) := by
  induction xs using List.reverseRecOn with
  | nil => exact (gfMul_zero e).symm
  | append_singleton xs x ih =>
    rw [List.map_append, List.map_singleton, checkLane_concat, ih, checkLane_concat, gfMul_xor, gfMul_assoc]

theorem length_combine (S : Nat) (l : List (Byte × List Byte)) (acc : List Byte) (size : acc.length = S)
    (sizes : ∀ cw ∈ l, cw.2.length = S) :
    (l.foldl (fun acc cw => List.zipWith (· ^^^ ·) acc (cw.2.map (gfMul cw.1))) acc).length = S := by
  induction l generalizing acc with
  | nil => exact size
  | cons cw l ih =>
    refine ih _ ?_ fun d mem => sizes d (List.mem_cons_of_mem _ mem)
    simp [size, sizes cw List.mem_cons_self]

/-- The check of a combination is the combination of the checks. -/
theorem checkLane_combineWindows (g : Byte) {S : Nat} {row : List Byte} {windows : List (List Byte)}
    (sizes : ∀ w ∈ windows, w.length = S) :
    checkLane g (combineWindows S row windows) = gfDot row (windows.map (checkLane g)) := by
  have from_ (l : List (Byte × List Byte)) : ∀ acc : List Byte, acc.length = S → (∀ cw ∈ l, cw.2.length = S) →
      checkLane g (l.foldl (fun acc cw => List.zipWith (· ^^^ ·) acc (cw.2.map (gfMul cw.1))) acc) =
        (l.map fun cw => gfMul cw.1 (checkLane g cw.2)).foldl (· ^^^ ·) (checkLane g acc) := by
    induction l with
    | nil => exact fun _ _ _ => rfl
    | cons cw l ih =>
      intro acc size all
      have here := all cw List.mem_cons_self
      rw [List.foldl_cons, ih _ (by simp [size, here]) fun d mem => all d (List.mem_cons_of_mem _ mem),
        checkLane_add g (by rw [size, List.length_map, here]), checkLane_scale, List.map_cons, List.foldl_cons]
  have zeros : checkLane g (List.replicate S 0#8) = 0#8 := by
    have none := checkLane_zeros g [] S
    rw [List.nil_append] at none
    exact none.trans (zero_gfMul _)
  rw [combineWindows, from_ _ _ (by simp) fun cw mem => sizes _ (List.of_mem_zip mem).2, zeros, gfDot, gfSum]
  congr 1
  rw [List.zipWith_map_right, List.zip, List.map_zipWith]

/-- A checked survivor that passes predicts with its computed check (R16). -/
theorem predictionCheck_lane {mask : BitVec 4} {v : Survivor} (checked : v.checked = true) (passes : v.fails mask = false)
    {t : Nat} (lane : t < 4) : (v.predictionCheck mask).getD t 0 = v.computed.getD t 0 := by
  have here : (v.predictionCheck mask).getD t 0 = if mask.getLsbD t then v.supplied.getD t 0 else v.computed.getD t 0 := by
    simp [Survivor.predictionCheck, lane]
  rw [here]
  split
  · next selected =>
    have all : checkMatches mask v.computed v.supplied = true := by
      simp only [Survivor.fails, checked, Bool.true_and, Bool.or_eq_false_iff, Bool.not_eq_false'] at passes
      exact passes.2
    have agree := List.all_eq_true.1 all t (List.mem_range.2 lane)
    simp only [selected, Bool.not_true, Bool.false_or, beq_iff_eq] at agree
    exact agree.symm
  · rfl

/-- Settles O50: each lane of an output's check is the same combination of its survivors' checks. -/
theorem predictionsAreMetWithoutAFault : Obligations.PredictionsAreMetWithoutAFault := by
  unfold Obligations.PredictionsAreMetWithoutAFault
  intro mask S rows members reads _ _ fits survivors passing
  rw [endsInMismatch, Bool.false_or]
  cases all : survivors.all Survivor.checked with
  | false => rfl
  | true =>
    have checked := List.all_eq_true.1 all
    have shape (v : Survivor) (mem : v ∈ survivors) : v.window.length = S ∧ v.computed = windowCheck v.window := by
      rw [show survivors = _ from survivors_eq S members reads] at mem
      obtain ⟨mr, pair, rfl⟩ := List.mem_map.1 mem
      have fit := fits mr.2 (List.of_mem_zip pair).2
      exact ⟨by simp [survivorOf, padWindow]; omega, rfl⟩
    rw [Bool.true_and, predictionDiffers, List.any_eq_false]
    intro row _
    simp only [bne_iff_ne, ne_eq, not_not]
    have lane (t : Nat) (lt : t < 4) (g : Byte) (here : checkGenerators[t]? = some g) :
        gfDot row ((survivors.map fun v => v.predictionCheck mask).map fun c => c.getD t 0) =
          checkLane g (combineWindows S row (survivors.map Survivor.window)) := by
      rw [checkLane_combineWindows g (fun w mem => by
        obtain ⟨v, mem', rfl⟩ := List.mem_map.1 mem
        exact (shape v mem').1), List.map_map, List.map_map]
      refine congrArg (gfDot row) (List.map_congr_left fun v mem => ?_)
      have computed : (windowCheck v.window).getD t 0 = checkLane g v.window := by
        simp [windowCheck, List.getD_eq_getElem?_getD, here]
      exact (predictionCheck_lane (checked v mem) (passing v mem) lt).trans (by rw [(shape v mem).2, computed]; rfl)
    refine List.ext_getElem? fun t => ?_
    rcases lt_or_ge t 4 with lt | ge
    · have bound : t < checkGenerators.length := lt
      have generator : checkGenerators[t]? = some checkGenerators[t] := List.getElem?_eq_getElem bound
      simp only [predictedCheck, windowCheck, List.getElem?_map, List.getElem?_range lt, generator, Option.map_some]
      rw [lane t lt _ generator]
    · rw [List.getElem?_eq_none (by exact ge), List.getElem?_eq_none (by simpa [predictedCheck] using ge)]

end Sys2Proof.Proofs

/-! PROOFS. The inversion of a basis matrix (R103), and what its rows decode (R104). -/

namespace Sys2Proof.Proofs

open Sys2Proof Sys2Proof.Machine

/-! ## The row operations -/

/-- A row of a matrix. -/
def rowAt (M : List AugRow) (i : Nat) : AugRow := M.getD i .empty

section
variable {M : List AugRow} {k a b c i : Nat}

theorem rowAt_set (r : AugRow) (inside : i < M.length) : rowAt (M.set a r) i = if a = i then r else rowAt M i := by
  simp only [rowAt, List.getD_eq_getElem?_getD, List.getElem?_set]
  by_cases same : a = i
  · subst same
    simp [inside]
  · simp [same]

theorem rowAt_swapRows (inside : i < M.length) :
    rowAt (swapRows M a b) i = if b = i then rowAt M a else if a = i then rowAt M b else rowAt M i := by
  rw [swapRows, rowAt_set _ (by simpa using inside), rowAt_set _ inside]
  rfl

theorem rowAt_scaleRow (inside : i < M.length) : rowAt (scaleRow M c) i =
    if c = i then (rowAt M c).scale (gfInv ((rowAt M c).left.getD c 0#8)) else rowAt M i := rowAt_set _ inside

theorem rowAt_eliminateColumn (inside : i < M.length) : rowAt (eliminateColumn M c) i =
    if i = c ∨ (rowAt M i).left.getD c 0#8 = 0#8 then rowAt M i
    else (rowAt M i).add ((rowAt M c).scale ((rowAt M i).left.getD c 0#8)) := by
  simp only [rowAt, eliminateColumn, List.getD_eq_getElem?_getD, List.getElem?_mapIdx, List.getElem?_eq_getElem inside,
    Option.map_some, Option.getD_some]
  rfl

@[simp] theorem length_swapRows (M : List AugRow) (a b : Nat) : (swapRows M a b).length = M.length := by simp [swapRows]

@[simp] theorem length_scaleRow (M : List AugRow) (c : Nat) : (scaleRow M c).length = M.length := by simp [scaleRow]

@[simp] theorem length_eliminateColumn (M : List AugRow) (c : Nat) : (eliminateColumn M c).length = M.length := by
  simp [eliminateColumn]

end

/-! ## What the elimination keeps -/

/-- The left half of a row times the data is its right half times the members' bytes. -/
def Carries (rows : List (List Byte)) (r : AugRow) : Prop :=
  r.left.length = rows.length ∧ r.right.length = rows.length ∧
    ∀ data : List Byte, data.length = rows.length → gfDot r.right (rows.map fun a => gfDot a data) = gfDot r.left data

/-- Data that every row of the matrix sends to 0. -/
def Kills (M : List AugRow) (data : List Byte) : Prop := ∀ i < M.length, gfDot (rowAt M i).left data = 0#8

/-- A row holds 1 in its own column and 0 in the others, as far as the columns before `c`. -/
def UnitBefore (M : List AugRow) (c : Nat) : Prop :=
  ∀ i < M.length, ∀ j < c, (rowAt M i).left.getD j 0#8 = if i = j then 1#8 else 0#8

/-- The matrix after the columns before `c`. -/
structure Reduced (rows : List (List Byte)) (c : Nat) (M : List AugRow) : Prop where
  size : M.length = rows.length
  carries : ∀ i < M.length, Carries rows (rowAt M i)
  unit : UnitBefore M c
  kills : ∀ data : List Byte, Kills M data → ∀ a ∈ rows, gfDot a data = 0#8

section
variable {rows : List (List Byte)} {M : List AugRow} {c r : Nat}

theorem Carries.scale {x : AugRow} (h : Carries rows x) (e : Byte) : Carries rows (x.scale e) := by
  obtain ⟨left, right, carries⟩ := h
  refine ⟨by simp [AugRow.scale, left], by simp [AugRow.scale, right], fun data size => ?_⟩
  simp only [AugRow.scale, gfDot_scale, carries data size]

theorem Carries.add {x y : AugRow} (h : Carries rows x) (h' : Carries rows y) : Carries rows (x.add y) := by
  obtain ⟨left, right, carries⟩ := h
  obtain ⟨left', right', carries'⟩ := h'
  refine ⟨by simp [AugRow.add, left, left'], by simp [AugRow.add, right, right'], fun data size => ?_⟩
  simp only [AugRow.add]
  rw [gfDot_add (right.trans right'.symm), gfDot_add (left.trans left'.symm), carries data size, carries' data size]

theorem getD_scale (e : Byte) (l : List Byte) (j : Nat) : (l.map (gfMul e)).getD j 0#8 = gfMul e (l.getD j 0#8) := by
  rw [List.getD_eq_getElem?_getD, List.getD_eq_getElem?_getD, List.getElem?_map]
  cases l[j]? with
  | none => simp [gfMul_zero]
  | some x => rfl

/-- The matrix with the identity alongside. -/
theorem reduced_augment (square : ∀ a ∈ rows, a.length = rows.length) : Reduced rows 0 (augment rows) := by
  have size : (augment rows).length = rows.length := by simp [augment]
  have row (i : Nat) (lt : i < rows.length) : rowAt (augment rows) i = { left := rows[i], right := unitRow rows.length i } := by
    simp [rowAt, augment, List.getD_eq_getElem?_getD, List.getElem?_eq_getElem lt]
  refine ⟨size, fun i lt => ?_, fun i _ j none => absurd none (Nat.not_lt_zero j), fun data kills a mem => ?_⟩
  · rw [size] at lt
    rw [row i lt]
    refine ⟨square _ (List.getElem_mem lt), by simp [unitRow], fun data _ => ?_⟩
    dsimp only
    rw [gfDot_unitRow lt]
    simp [lt]
  · obtain ⟨i, lt, rfl⟩ := List.mem_iff_getElem.1 mem
    have here := kills i (by rw [size]; exact lt)
    rwa [row i lt] at here

/-- Rows exchanged on and below the column. -/
theorem Reduced.swap (h : Reduced rows c M) (low : c < M.length) (inside : r < M.length) (below : c ≤ r) :
    Reduced rows c (swapRows M c r) := by
  refine ⟨(length_swapRows M c r).trans h.size, fun i lt => ?_, fun i lt j left => ?_, fun data kills a mem => ?_⟩
  · rw [length_swapRows] at lt
    rw [rowAt_swapRows lt]
    split
    · exact h.carries c low
    · split
      · exact h.carries r inside
      · exact h.carries i lt
  · rw [length_swapRows] at lt
    rw [rowAt_swapRows lt]
    split
    · next same => rw [h.unit c low j left, if_neg (by omega), if_neg (by omega)]
    · split
      · next same => rw [h.unit r inside j left, if_neg (by omega), if_neg (by omega)]
      · exact h.unit i lt j left
  · refine h.kills data (fun i lt => ?_) a mem
    have at_ (i : Nat) (lt : i < M.length) := kills i (by rwa [length_swapRows])
    by_cases first : c = i
    · have here := at_ r inside
      rwa [rowAt_swapRows inside, if_pos rfl, first] at here
    · by_cases second : r = i
      · have here := at_ c low
        rw [rowAt_swapRows low, if_pos rfl] at here
        split at here
        · next same => exact absurd (same.symm.trans second) first
        · rwa [second] at here
      · have here := at_ i lt
        rwa [rowAt_swapRows lt, if_neg second, if_neg first] at here

/-- The column's row scaled to hold 1 there. -/
theorem Reduced.scale (h : Reduced rows c M) (low : c < M.length) (pivot : (rowAt M c).left.getD c 0#8 ≠ 0#8) :
    Reduced rows c (scaleRow M c) ∧ (rowAt (scaleRow M c) c).left.getD c 0#8 = 1#8 := by
  have inverse : gfMul (gfInv ((rowAt M c).left.getD c 0#8)) ((rowAt M c).left.getD c 0#8) = 1#8 := by
    rw [gfMul_comm, gfMul_gfInv pivot]
  refine ⟨⟨(length_scaleRow M c).trans h.size, fun i lt => ?_, fun i lt j left => ?_, fun data kills a mem => ?_⟩, ?_⟩
  · rw [length_scaleRow] at lt
    rw [rowAt_scaleRow lt]
    split
    · exact (h.carries c low).scale _
    · exact h.carries i lt
  · rw [length_scaleRow] at lt
    rw [rowAt_scaleRow lt]
    split
    · next same =>
      rw [AugRow.scale, getD_scale, h.unit c low j left, if_neg (by omega), if_neg (by omega), gfMul_zero]
    · exact h.unit i lt j left
  · refine h.kills data (fun i lt => ?_) a mem
    have here := kills i (by rwa [length_scaleRow])
    rw [rowAt_scaleRow lt] at here
    split at here
    · next same =>
      subst same
      rw [AugRow.scale, gfDot_scale] at here
      calc gfDot (rowAt M c).left data
          = gfMul ((rowAt M c).left.getD c 0#8)
              (gfMul (gfInv ((rowAt M c).left.getD c 0#8)) (gfDot (rowAt M c).left data)) := by
            rw [← gfMul_assoc, gfMul_gfInv pivot, one_gfMul]
        _ = 0#8 := by rw [here, gfMul_zero]
    · exact here
  · rw [rowAt_scaleRow low, if_pos rfl, AugRow.scale, getD_scale, inverse]

/-- The column cleared in every other row. -/
theorem Reduced.eliminate (h : Reduced rows c M) (low : c < M.length) (one : (rowAt M c).left.getD c 0#8 = 1#8) :
    Reduced rows (c + 1) (eliminateColumn M c) := by
  refine ⟨(length_eliminateColumn M c).trans h.size, fun i lt => ?_, fun i lt j left => ?_, fun data kills a mem => ?_⟩
  · rw [length_eliminateColumn] at lt
    rw [rowAt_eliminateColumn lt]
    split
    · exact h.carries i lt
    · exact (h.carries i lt).add ((h.carries c low).scale _)
  · rw [length_eliminateColumn] at lt
    have sizes : (rowAt M i).left.length = ((rowAt M c).scale ((rowAt M i).left.getD c 0#8)).left.length := by
      rw [AugRow.scale, List.length_map, (h.carries i lt).1, (h.carries c low).1]
    rw [rowAt_eliminateColumn lt]
    rcases Nat.lt_succ_iff_lt_or_eq.1 left with before | rfl
    · split
      · exact h.unit i lt j before
      · rw [AugRow.add, getD_zipWith_xor sizes, AugRow.scale, getD_scale, h.unit c low j before, h.unit i lt j before,
          if_neg (show c ≠ j by omega), gfMul_zero]
        exact BitVec.xor_zero
    · split
      · next done =>
        by_cases same : i = j
        · subst same
          rw [one, if_pos rfl]
        · rw [done.resolve_left same, if_neg same]
      · next changed =>
        obtain ⟨other, -⟩ := not_or.1 changed
        rw [AugRow.add, getD_zipWith_xor sizes, AugRow.scale, getD_scale, one, gfMul_one, if_neg other]
        exact BitVec.xor_self
  · refine h.kills data (fun i lt => ?_) a mem
    have at_ (i : Nat) (lt : i < M.length) := kills i (by rwa [length_eliminateColumn])
    have pivot : gfDot (rowAt M c).left data = 0#8 := by
      have here := at_ c low
      rwa [rowAt_eliminateColumn low, if_pos (.inl rfl)] at here
    have here := at_ i lt
    rw [rowAt_eliminateColumn lt] at here
    split at here
    · exact here
    · have sizes : (rowAt M i).left.length = ((rowAt M c).scale ((rowAt M i).left.getD c 0#8)).left.length := by
        rw [AugRow.scale, List.length_map, (h.carries i lt).1, (h.carries c low).1]
      rw [AugRow.add, gfDot_add sizes, AugRow.scale, gfDot_scale, pivot, gfMul_zero] at here
      exact BitVec.xor_zero.symm.trans here

end

/-! ## The elimination, column by column -/

section
variable {rows : List (List Byte)} {M : List AugRow} {c : Nat}

theorem Reduced.step (h : Reduced rows c M) {M' : List AugRow} (inside : c < rows.length)
    (stepped : eliminationStep M c = some M') : Reduced rows (c + 1) M' := by
  obtain ⟨r, found, rfl⟩ := Option.map_eq_some_iff.1 stepped
  have low : c < M.length := by rw [h.size]; exact inside
  have bound : r < M.length := List.mem_range.1 (List.mem_of_find?_eq_some found)
  have test := List.find?_some found
  simp only [Bool.and_eq_true, decide_eq_true_eq, bne_iff_ne] at test
  obtain ⟨below, pivot⟩ := test
  have swapped := h.swap low bound below
  have low' : c < (swapRows M c r).length := by rwa [length_swapRows]
  have here : (rowAt (swapRows M c r) c).left.getD c 0#8 ≠ 0#8 := by
    rw [rowAt_swapRows low, if_pos rfl]
    split
    · next same => subst same; exact pivot
    · exact pivot
  obtain ⟨scaled, one⟩ := swapped.scale low' here
  exact scaled.eliminate (by rwa [length_scaleRow]) one

/-- Without a pivot the rows from the column on hold 0 in it. -/
theorem noPivot (stuck : eliminationStep M c = none) {i : Nat} (lt : i < M.length) (below : c ≤ i) :
    (rowAt M i).left.getD c 0#8 = 0#8 := by
  have none : pivotRow M c = none := Option.map_eq_none_iff.1 stuck
  have test := List.find?_eq_none.1 none i (List.mem_range.2 lt)
  simpa [below, rowAt] using test

/-- Data that a matrix without a pivot in column `c` sends to 0. -/
def nullData (M : List AugRow) (c k : Nat) : List Byte :=
  (List.range k).map fun j => if j < c then (rowAt M j).left.getD c 0#8 else if j = c then 1#8 else 0#8

theorem residue_add_self (a : Byte) : residue a + residue a = 0 := by
  rw [← residue_xor, BitVec.xor_self]
  exact residue_zero

theorem Reduced.kills_nullData (h : Reduced rows c M) (inside : c < rows.length) (stuck : eliminationStep M c = none) :
    Kills M (nullData M c rows.length) := by
  intro i lt
  have bound : i < rows.length := h.size ▸ lt
  have term (j : Nat) (mem : j ∈ Finset.range rows.length) :
      residue ((rowAt M i).left.getD j 0#8) * residue ((nullData M c rows.length).getD j 0#8) =
        (if i = j then (if i < c then residue ((rowAt M i).left.getD c 0#8) else 0) else 0) +
          if c = j then residue ((rowAt M i).left.getD c 0#8) else 0 := by
    have entry : (nullData M c rows.length).getD j 0#8 =
        if j < c then (rowAt M j).left.getD c 0#8 else if j = c then 1#8 else 0#8 := by
      simp [nullData, Finset.mem_range.1 mem]
    rw [entry]
    rcases Nat.lt_trichotomy j c with before | rfl | after
    · rw [if_pos before, h.unit i lt j before, if_neg (show c ≠ j by omega)]
      by_cases same : i = j
      · subst same
        simp [before]
      · simp [same]
    · rw [if_neg (lt_irrefl j), if_pos rfl, if_pos rfl, residue_one, mul_one]
      by_cases same : i = j
      · simp [same]
      · simp [same]
    · rw [if_neg (by omega), if_neg (by omega), if_neg (show c ≠ j by omega), residue_zero, mul_zero, add_zero]
      by_cases same : i = j
      · rw [if_pos same, if_neg (by omega)]
      · rw [if_neg same]
  refine residue_injective ?_
  rw [residue_gfDot (n := rows.length) _ _ (by rw [(h.carries i lt).1]; exact min_le_left _ _), Finset.sum_congr rfl term,
    Finset.sum_add_distrib, Finset.sum_ite_eq, Finset.sum_ite_eq, if_pos (Finset.mem_range.2 bound),
    if_pos (Finset.mem_range.2 inside), residue_zero]
  by_cases before : i < c
  · rw [if_pos before, residue_add_self]
  · rw [if_neg before, noPivot stuck lt (by omega), residue_zero, add_zero]

/-- The elimination either reduces every column or stops at one without a pivot. -/
theorem elimination_ends (square : ∀ a ∈ rows, a.length = rows.length) (n : Nat) (bound : n ≤ rows.length) :
    (∃ M, (List.range n).foldlM eliminationStep (augment rows) = some M ∧ Reduced rows n M) ∨
      ((List.range n).foldlM eliminationStep (augment rows) = none ∧
        ∃ c < rows.length, ∃ M, Reduced rows c M ∧ eliminationStep M c = none) := by
  induction n with
  | zero => exact .inl ⟨_, rfl, reduced_augment square⟩
  | succ n ih =>
    rw [List.range_succ, List.foldlM_append]
    rcases ih (by omega) with ⟨M, run, reduced⟩ | ⟨run, stuck⟩
    · rw [run]
      cases stepped : eliminationStep M n with
      | none => exact .inr ⟨by simp [stepped], n, by omega, M, reduced, stepped⟩
      | some M' => exact .inl ⟨M', by simp [stepped], reduced.step (by omega) stepped⟩
    · rw [run]
      exact .inr ⟨rfl, stuck⟩

/-- An inverse's rows, applied to the members' bytes, give the data bytes. -/
theorem inverse_decodes (square : ∀ a ∈ rows, a.length = rows.length) {inverse : List (List Byte)}
    (found : invertRows rows = some inverse) :
    inverse.length = rows.length ∧ (∀ r ∈ inverse, r.length = rows.length) ∧
      ∀ data : List Byte, data.length = rows.length → ∀ i < rows.length,
        gfDot (inverse.getD i []) (rows.map fun a => gfDot a data) = data.getD i 0#8 := by
  obtain ⟨M, run, rfl⟩ := Option.map_eq_some_iff.1 found
  rcases elimination_ends square rows.length le_rfl with ⟨M', run', reduced⟩ | ⟨stuck, -⟩
  · obtain rfl : M' = M := Option.some.inj (run'.symm.trans run)
    refine ⟨by simp [reduced.size], fun r mem => ?_, fun data size i lt => ?_⟩
    · obtain ⟨x, mem', rfl⟩ := List.mem_map.1 mem
      obtain ⟨i, lt, rfl⟩ := List.mem_iff_getElem.1 mem'
      have right := (reduced.carries i lt).2.1
      rwa [rowAt, List.getD_eq_getElem _ _ lt] at right
    · have lt' : i < M'.length := by rw [reduced.size]; exact lt
      obtain ⟨left, -, carries⟩ := reduced.carries i lt'
      have here : (M'.map AugRow.right).getD i [] = (rowAt M' i).right := by simp [rowAt, lt']
      have unit : (rowAt M' i).left = unitRow rows.length i := by
        refine List.ext_getElem (by simp [left, unitRow]) fun j short _ => ?_
        have entry := reduced.unit i lt' j (left ▸ short)
        rw [List.getD_eq_getElem _ _ short] at entry
        rw [entry]
        simp [unitRow, eq_comm]
      rw [here, carries data size, unit, gfDot_unitRow lt]
  · rw [stuck] at run
    exact absurd run nofun

end

/-- Settles O39: an elimination without a pivot leaves data that the rows send to 0, and an inverse decodes 0 as 0. -/
theorem singularMeansUndecodable : Obligations.SingularMeansUndecodable := by
  unfold Obligations.SingularMeansUndecodable
  refine fun rows square => ⟨fun singular => ?_, fun ⟨data, size, ⟨a, mem, nonzero⟩, zero⟩ => ?_⟩
  · have stuck : (List.range rows.length).foldlM eliminationStep (augment rows) = none := Option.map_eq_none_iff.1 singular
    rcases elimination_ends square rows.length le_rfl with ⟨M, run, -⟩ | ⟨-, c, inside, M, reduced, stopped⟩
    · exact absurd (run.symm.trans stuck) nofun
    · refine ⟨nullData M c rows.length, by simp [nullData], ⟨1#8, ?_, by decide⟩,
        reduced.kills _ (reduced.kills_nullData inside stopped)⟩
      exact List.mem_map.2 ⟨c, List.mem_range.2 inside, by simp⟩
  · refine Option.eq_none_iff_forall_ne_some.2 fun inverse found => nonzero ?_
    obtain ⟨-, -, decodes⟩ := inverse_decodes square found
    obtain ⟨i, lt, rfl⟩ := List.mem_iff_getElem.1 mem
    have here := decodes data size i (size ▸ lt)
    have zeros : rows.map (fun a => gfDot a data) = List.replicate rows.length 0#8 :=
      List.eq_replicate_iff.2 ⟨by simp, by simpa using zero⟩
    have none : gfDot (inverse.getD i []) (List.replicate rows.length 0#8) = 0#8 := by
      refine residue_injective ?_
      rw [residue_gfDot _ _ le_rfl, residue_zero]
      refine Finset.sum_eq_zero fun j _ => ?_
      have entry : (List.replicate rows.length 0#8).getD j 0#8 = 0#8 := by
        rw [List.getD_eq_getElem?_getD, List.getElem?_replicate]
        split <;> rfl
      rw [entry, residue_zero, mul_zero]
    rw [zeros, none, List.getD_eq_getElem _ _ lt] at here
    exact here.symm

/-! ## Decoding (R104) -/

theorem generatorRow_length {p : Profile} (coeffs : p.coeffs.length = p.m * p.k) {f : Nat} (inside : f < p.k + p.m) :
    (p.generatorRow f).length = p.k := by
  unfold Profile.generatorRow
  split
  · simp [unitRow]
  · next parity =>
    obtain ⟨r, rfl⟩ := Nat.exists_eq_add_of_le (not_lt.1 parity)
    have fits : r * p.k + p.k ≤ p.m * p.k := by
      calc r * p.k + p.k = (r + 1) * p.k := by ring
        _ ≤ p.m * p.k := Nat.mul_le_mul_right _ (by omega)
    simp only [Profile.parityRow, slice, Nat.add_sub_cancel_left, List.length_take, List.length_drop, coeffs]
    omega

/-- Settles O38: the inverse gives back the data (`inverse_decodes`), and a parity row is applied to it
(`gfDot_rowTimesMatrix`). -/
theorem decodingReproducesTheStripe : Obligations.DecodingReproducesTheStripe := by
  unfold Obligations.DecodingReproducesTheStripe
  intro p basis lost data inverse coeffs size members inBasis inLost byteOf found f mem
  have count : (basis.map p.generatorRow).length = p.k := by rw [List.length_map, members]
  have square : ∀ a ∈ basis.map p.generatorRow, a.length = (basis.map p.generatorRow).length := fun a mem => by
    obtain ⟨g, mem', rfl⟩ := List.mem_map.1 mem
    rw [count]
    exact generatorRow_length coeffs (inBasis g mem')
  obtain ⟨length, lengths, decodes⟩ := inverse_decodes square found
  rw [count] at length lengths decodes
  have bytes : basis.map byteOf = (basis.map p.generatorRow).map fun a => gfDot a data := by
    rw [List.map_map]
    rfl
  have dataByte (i : Nat) (lt : i < p.k) : byteOf i = data.getD i 0#8 := by
    have row : p.generatorRow i = unitRow p.k i := if_pos lt
    simp only [byteOf, row, gfDot_unitRow lt]
  refine ⟨?_, fun i b here => ?_⟩
  · rw [bytes]
    by_cases isData : f < p.k
    · have row : coefficientRow inverse (p.lostRow f) = inverse.getD f [] := by
        simp only [coefficientRow, Profile.lostRow, if_pos isData]
      rw [row, decodes data size f isData, dataByte f isData]
    · have parity : p.generatorRow f = p.parityRow (f - p.k) := if_neg isData
      have row : coefficientRow inverse (p.lostRow f) = rowTimesMatrix (p.generatorRow f) inverse := by
        simp only [coefficientRow, Profile.lostRow, if_neg isData, parity]
      have width : (p.generatorRow f).length = p.k := generatorRow_length coeffs (inLost f mem)
      have decoded : inverse.map (fun r => gfDot r ((basis.map p.generatorRow).map fun a => gfDot a data)) = data := by
        refine List.ext_getElem (by rw [List.length_map, length, size]) fun i lt lt' => ?_
        have inside : i < p.k := size ▸ lt'
        have here := decodes data size i inside
        rw [List.getD_eq_getElem _ _ (by rw [length]; exact inside), List.getD_eq_getElem _ _ lt'] at here
        rw [List.getElem_map, here]
      rw [row, gfDot_rowTimesMatrix (length.trans width.symm) (fun r mem => (lengths r mem).trans width.symm), decoded]
  · have lt : i < p.k := size ▸ (List.getElem?_eq_some_iff.1 here).1
    rw [dataByte i lt, List.getD_eq_getElem?_getD, here]
    rfl

end Sys2Proof.Proofs
